-- ==== Sys2Proof/Word.lean ====
section
/-! DEFINITION. The word types of PMTX-v7: every value is an unsigned bit vector of the width the spec gives it
(00_scope.md R7, R8; 30_encoding.md R71). -/

namespace Sys2Proof

/-- A command word or a response word: `W_CMD` = `W_RESP` = 32 bits (R7). -/
abbrev Word := BitVec 32

/-- An accumulator value: `W_ACC` = 30 bits (R7). -/
abbrev Acc := BitVec 30

/-- A symbol, or a group: `W_SYM` = 5 bits (R7, R12). -/
abbrev Symbol := BitVec 5

/-- The contents of one field register: `W_F` = 27 bits (R7). -/
abbrev FieldWord := BitVec 27

/-- A tag character or an RD selector: 8 bits (R71, format B8). -/
abbrev Byte := BitVec 8

end Sys2Proof
end

