-- ==== Sys2Proof/Config.lean ====
section
/-! DEFINITION. The implementation parameters of the block, as types (00_scope.md R7; 41_txref_packer.md R131), and
what a layout table must meet to be a configuration of this block (R133). A machine takes them as the field
`config` of its state (log 12); the default values are `Sys2Proof.Machine.defaultConfig` in Machine/Params.lean. -/

namespace Sys2Proof

/-- Where one field stands in the bitstream: starting position and width in bits (R131).
Width 0 says that the field is absent, and its offset is then irrelevant. -/
structure Slot where
  off   : Nat
  width : Nat
deriving DecidableEq, Repr

/-- One row of `P_LAYOUT` (R131): the group count N and one slot per field, in the canonical order of R130. -/
structure LayoutRow where
  n      : Nat
  magic  : Slot
  flag   : Slot
  extv   : Slot
  height : Slot
  pos    : Slot
  txo    : Slot
  rsv    : Slot
deriving DecidableEq, Repr

/-- The parameters of the block (R7): `P_GEN[0..4]`, `P_TARGET[0]` (ORIGINAL), `P_TARGET[1]` (MODERN) and
`P_LAYOUT[0..7]`. They are constants, not state (10_state.md R31). -/
structure Config where
  gen      : Vector Acc 5
  original : Acc
  modern   : Acc
  layout   : Vector LayoutRow 8
deriving DecidableEq, Repr

/-- The seven slots of a row in canonical order (R130). -/
def LayoutRow.slots (r : LayoutRow) : List Slot :=
  [r.magic, r.flag, r.extv, r.height, r.pos, r.txo, r.rsv]

/-- The slots of the fields present in a row, in canonical order (R131: an absent field has width 0). -/
def LayoutRow.present (r : LayoutRow) : List Slot :=
  r.slots.filter fun x => x.width != 0

/-- The constraints (a) to (g) of R133 on one row; `extended` is the SIZE bit of the row's TVAR value. -/
structure LayoutRow.Legal (extended : Bool) (r : LayoutRow) : Prop where
  /-- (a) MAGIC occupies the first group in full. -/
  magicFirst : r.magic = ⟨0, 5⟩
  /-- (b) FLAG is at offset 5 with width 1. -/
  flagSecond : r.flag = ⟨5, 1⟩
  /-- (c) The present fields stand in canonical order and do not overlap. -/
  ordered : r.present.Pairwise fun a b => a.off + a.width ≤ b.off
  /-- (d) Every present field ends within the N groups. -/
  fits : ∀ x ∈ r.present, x.off + x.width ≤ 5 * r.n
  /-- (e) The ranges of HEIGHT and POS. -/
  heightRange : 21 ≤ r.height.width ∧ r.height.width ≤ 26
  posRange : 13 ≤ r.pos.width ∧ r.pos.width ≤ 18
  /-- (f) Standard rows have no TXO, RSV or EXTV. -/
  standardAbsent : extended = false → r.txo.width = 0 ∧ r.rsv.width = 0 ∧ r.extv.width = 0
  /-- (f) Extended rows have a TXO of 13 to 15 bits and an RSV of 0 to 2 bits. -/
  extendedRange : extended = true → 13 ≤ r.txo.width ∧ r.txo.width ≤ 15 ∧ r.rsv.width ≤ 2
  /-- (g) Every width fits a field register. -/
  widthBound : ∀ x ∈ r.slots, x.width ≤ 27
  /-- (g) The group count fits the group registers, `NGMAX` = 13. -/
  countBound : r.n ≤ 13

/-- A configuration of this block: R133 on every row (SIZE is bit 0 of the TVAR value), its clause (h) on rows 0
and 1, and the two targets differ (R102). -/
structure Config.Legal (c : Config) : Prop where
  rows : ∀ v : Fin 8, (c.layout[v]).Legal (v.val % 2 == 1)
  /-- (h) -/
  row0Count : c.layout[0].n = 8
  /-- (h) -/
  row1Count : c.layout[1].n = 11
  targetsDiffer : c.original ≠ c.modern

end Sys2Proof
end

