-- ==== Sys2Proof/Syntax.lean ====
section
/-! DEFINITION. The 24 commands of PMTX-v7 as syntax: one constructor per row of the opcode map
(30_encoding.md R73), with the operands of its format (R71). -/

namespace Sys2Proof

/-- The seven txref fields in canonical order, ids 0 to 6 (41_txref_packer.md R130; 10_state.md R25). -/
inductive FieldId where
  | magic | flag | extv | height | pos | txo | rsv
deriving DecidableEq, Repr

/-- The two checksum targets (00_scope.md R3): the source's original and modern constants. -/
inductive Target where
  | original | modern
deriving DecidableEq, Repr

/-- What an RD selector names (20_memory.md R52). -/
inductive Selector where
  | acc
  | chk
  | status
  | chkGroup (i : Fin 6)
  | field (f : FieldId)
  | group (i : Fin 13)
deriving DecidableEq, Repr

/-- A command with its operands. The three operands that decode checks against an index space (R76) are kept as
the fields of the word; `Instr.wf` says which values are legal. -/
inductive Instr where
  /-- NOP, 42_control.md R170. -/
  | nop
  /-- PM_INIT, 40_polymod.md R104. -/
  | pmInit
  /-- PM_STEP, R105. -/
  | pmStep (v : Symbol)
  /-- PM_HRPH, R106. -/
  | pmHrph (c : Byte)
  /-- PM_HRPL, R107. -/
  | pmHrpl (c : Byte)
  /-- PM_PAD6, R108. -/
  | pmPad6
  /-- PM_CSUM, R109. -/
  | pmCsum (t : Target)
  /-- PM_VERIFY, R110. -/
  | pmVerify
  /-- TP_SETVAR, 41_txref_packer.md R135. -/
  | tpSetvar (v : BitVec 3)
  /-- TP_WRMAGIC, R136. -/
  | tpWrmagic (imm : FieldWord)
  /-- TP_WRFLAG, R137. -/
  | tpWrflag (imm : FieldWord)
  /-- TP_WREXTV, R138. -/
  | tpWrextv (imm : FieldWord)
  /-- TP_WRHGT, R139. -/
  | tpWrhgt (imm : FieldWord)
  /-- TP_WRPOS, R140. -/
  | tpWrpos (imm : FieldWord)
  /-- TP_WRTXO, R141. -/
  | tpWrtxo (imm : FieldWord)
  /-- TP_WRRSV, R142. -/
  | tpWrrsv (imm : FieldWord)
  /-- TP_WRG, R143. -/
  | tpWrg (i : BitVec 4) (v : Symbol)
  /-- TP_SETLEN, R144. -/
  | tpSetlen (n : BitVec 4)
  /-- TP_PACK, R145. -/
  | tpPack
  /-- TP_UNPACK, R146. -/
  | tpUnpack
  /-- TP_CLR, R147. -/
  | tpClr
  /-- RD, 42_control.md R171. -/
  | rd (sel : Byte)
  /-- ERRCLR, R172. -/
  | errclr
  /-- SWRESET, R173. -/
  | swreset
deriving DecidableEq, Repr

end Sys2Proof
end

