-- ==== Sys2Proof/Machine/Operands.lean ====
section
/-! DEFINITION. Every operand form: field ids, the RD selector map, the two index bounds, the halves of a tag byte,
the target select and the three bits of TVAR. -/

namespace Sys2Proof

/-- The id of a field, 0 to 6 (10_state.md R25). -/
def FieldId.idx : FieldId → Fin 7
  | .magic => 0
  | .flag => 1
  | .extv => 2
  | .height => 3
  | .pos => 4
  | .txo => 5
  | .rsv => 6

/-- The fields in canonical order, lowest id first (41_txref_packer.md R130). -/
def FieldId.all : List FieldId := [.magic, .flag, .extv, .height, .pos, .txo, .rsv]

/-- The field with an id, where there is one. -/
def FieldId.ofNat? (n : Nat) : Option FieldId := FieldId.all[n]?

/-- The slot of a field in a layout row: `(off(v,f), w(v,f))` of R131. -/
def LayoutRow.slot (r : LayoutRow) : FieldId → Slot
  | .magic => r.magic
  | .flag => r.flag
  | .extv => r.extv
  | .height => r.height
  | .pos => r.pos
  | .txo => r.txo
  | .rsv => r.rsv

namespace Machine

/-- The RD selector map (20_memory.md R52): the register or view a selector byte names, none where it is unmapped. -/
def selectorOf (c : Byte) : Option Selector :=
  let n := c.toNat
  if n = 0x00 then some .acc
  else if n = 0x01 then some .chk
  else if n = 0x02 then some .status
  else if h : 0x08 ≤ n ∧ n ≤ 0x0D then some (.chkGroup ⟨n - 0x08, by omega⟩)
  else if 0x10 ≤ n ∧ n ≤ 0x16 then (FieldId.ofNat? (n - 0x10)).map .field
  else if h : 0x20 ≤ n ∧ n ≤ 0x2C then some (.group ⟨n - 0x20, by omega⟩)
  else none

/-- The selector byte of a readable register or view (R52). -/
def selectorByte : Selector → Byte
  | .acc => 0x00
  | .chk => 0x01
  | .status => 0x02
  | .chkGroup i => BitVec.ofNat 8 (0x08 + i.val)
  | .field f => BitVec.ofNat 8 (0x10 + f.idx.val)
  | .group i => BitVec.ofNat 8 (0x20 + i.val)

/-- A TP_WRG index within the group registers, 0 to 12 (30_encoding.md R76). -/
def groupIndexLegal (i : BitVec 4) : Bool := decide (i.toNat ≤ 12)

/-- A TP_SETLEN count within the group registers, 0 to 13 (R76). -/
def groupCountLegal (n : BitVec 4) : Bool := decide (n.toNat ≤ 13)

/-- The high part of a tag byte, `c >> 5`, as the symbol PM_HRPH feeds (40_polymod.md R106). -/
def tagHigh (c : Byte) : Symbol := (c >>> 5).setWidth 5

/-- The low part of a tag byte, `c & 0x1F`, as the symbol PM_HRPL feeds (R107). -/
def tagLow (c : Byte) : Symbol := (c &&& 0x1F#8).setWidth 5

/-- PM_CSUM's operand: s = 0 selects ORIGINAL and s = 1 MODERN (R109). -/
def targetOfBit (s : BitVec 1) : Target := if s = 1#1 then .modern else .original

/-- The bit that selects a target (R109). -/
def targetBit : Target → BitVec 1
  | .original => 0#1
  | .modern => 1#1

/-- `P_TARGET[s]` (R102). -/
def targetValue (c : Config) : Target → Acc
  | .original => c.original
  | .modern => c.modern

/-- The layout-table row a TVAR value names (41_txref_packer.md R131). -/
def layoutRow (c : Config) (tvar : BitVec 3) : LayoutRow := c.layout[tvar.toFin]

/-- TVAR[2], LAYOUT: false LEGACY, true UNIFORM (10_state.md R24). -/
def tvarUniform (tvar : BitVec 3) : Bool := tvar.getLsbD 2

/-- TVAR[1], NET: false MAIN, true TEST (R24). -/
def tvarTest (tvar : BitVec 3) : Bool := tvar.getLsbD 1

/-- TVAR[0], SIZE: false STD, true EXT (R24). -/
def tvarExtended (tvar : BitVec 3) : Bool := tvar.getLsbD 0

/-- `v = {L, N, S}` as `tp.setvar L, N, S` places it (30_encoding.md R80; R24). -/
def tvarOf (uniform test extended : Bool) : BitVec 3 :=
  BitVec.ofBool uniform ++ BitVec.ofBool test ++ BitVec.ofBool extended

end Machine

end Sys2Proof
end

