-- ==== Sys2Proof/WellFormed.lean ====
section
/-! DEFINITION. Well-formed commands: the index checks of 30_encoding.md R76. Every other operand value is legal. -/

namespace Sys2Proof

/-- The command's index operands lie in their index spaces (R76; 20_memory.md R51). -/
def Instr.wf : Instr → Bool
  | .nop => true
  | .pmInit => true
  | .pmStep _ => true
  | .pmHrph _ => true
  | .pmHrpl _ => true
  | .pmPad6 => true
  | .pmCsum _ => true
  | .pmVerify => true
  | .tpSetvar _ => true
  | .tpWrmagic _ => true
  | .tpWrflag _ => true
  | .tpWrextv _ => true
  | .tpWrhgt _ => true
  | .tpWrpos _ => true
  | .tpWrtxo _ => true
  | .tpWrrsv _ => true
  | .tpWrg i _ => Machine.groupIndexLegal i
  | .tpSetlen n => Machine.groupCountLegal n
  | .tpPack => true
  | .tpUnpack => true
  | .tpClr => true
  | .rd sel => (Machine.selectorOf sel).isSome
  | .errclr => true
  | .swreset => true

end Sys2Proof
end

