-- ==== Sys2Proof/Decode.lean ====
section
/-! DEFINITION. Decoding a command word (30_encoding.md R70 to R79) and encoding a command, both from the same
tables of the spec: the formats of R71 and the opcode map of R73. -/

namespace Sys2Proof

/-- The three ways a word fails to decode, each with the opcode that goes into ERRINFO (R74, R75, R76). -/
inductive DecodeFault where
  /-- The opcode is reserved (R74). -/
  | illegalOp (op : BitVec 5)
  /-- A defined opcode with a nonzero reserved bit (R75). -/
  | rsvdBits (op : BitVec 5)
  /-- Legal reserved bits and an index outside its space (R76). -/
  | badIndex (op : BitVec 5)
deriving DecidableEq, Repr

/-- The eight operand formats (R71). -/
inductive Format where
  | z | v5 | b8 | s1 | s3 | s4 | i27 | gv
deriving DecidableEq, Repr

/-- The operand bits of a format's pattern (R71): the letters other than `o`. -/
def Format.operandBits : Format → Word
  | .z => 0x00000000#32
  | .v5 => 0x0000001F#32
  | .b8 => 0x000000FF#32
  | .s1 => 0x00000001#32
  | .s3 => 0x00000007#32
  | .s4 => 0x0000000F#32
  | .i27 => 0x07FFFFFF#32
  | .gv => 0x00000F1F#32

/-- One row of the opcode map (R73): a word is the row's command when `(w & mask) = fixed` and its index is legal;
`build` reads the operands the row's format gives it. -/
structure OpRow where
  op     : BitVec 5
  format : Format
  fixed  : Word
  mask   : Word
  build  : Word → Instr

/-- OP = w[31:27] (R70). -/
def opField (w : Word) : BitVec 5 := w.extractLsb' 27 5

/-- v = w[4:0], formats V5 and GV (R71). -/
def symbolField (w : Word) : Symbol := w.extractLsb' 0 5

/-- c = w[7:0], format B8 (R71). -/
def byteField (w : Word) : Byte := w.extractLsb' 0 8

/-- s = w[0], format S1 (R71). -/
def selectField (w : Word) : BitVec 1 := w.extractLsb' 0 1

/-- v = w[2:0], format S3 (R71). -/
def variantField (w : Word) : BitVec 3 := w.extractLsb' 0 3

/-- n = w[3:0], format S4 (R71). -/
def countField (w : Word) : BitVec 4 := w.extractLsb' 0 4

/-- imm = w[26:0], format I27 (R71). -/
def immField (w : Word) : FieldWord := w.extractLsb' 0 27

/-- i = w[11:8], format GV (R71). -/
def indexField (w : Word) : BitVec 4 := w.extractLsb' 8 4

/-- The rows of R73 with OP[4] = 0: NOP and the polymod engine. -/
def polymodRows : List OpRow :=
  [ ⟨0x00#5, .z, 0x00000000#32, 0xFFFFFFFF#32, fun _ => .nop⟩,
    ⟨0x01#5, .z, 0x08000000#32, 0xFFFFFFFF#32, fun _ => .pmInit⟩,
    ⟨0x02#5, .v5, 0x10000000#32, 0xFFFFFFE0#32, fun w => .pmStep (symbolField w)⟩,
    ⟨0x03#5, .b8, 0x18000000#32, 0xFFFFFF00#32, fun w => .pmHrph (byteField w)⟩,
    ⟨0x04#5, .b8, 0x20000000#32, 0xFFFFFF00#32, fun w => .pmHrpl (byteField w)⟩,
    ⟨0x05#5, .z, 0x28000000#32, 0xFFFFFFFF#32, fun _ => .pmPad6⟩,
    ⟨0x06#5, .s1, 0x30000000#32, 0xFFFFFFFE#32, fun w => .pmCsum (Machine.targetOfBit (selectField w))⟩,
    ⟨0x07#5, .z, 0x38000000#32, 0xFFFFFFFF#32, fun _ => .pmVerify⟩ ]

/-- The rows of R73 for the packer. -/
def packerRows : List OpRow :=
  [ ⟨0x10#5, .s3, 0x80000000#32, 0xFFFFFFF8#32, fun w => .tpSetvar (variantField w)⟩,
    ⟨0x11#5, .i27, 0x88000000#32, 0xF8000000#32, fun w => .tpWrmagic (immField w)⟩,
    ⟨0x12#5, .i27, 0x90000000#32, 0xF8000000#32, fun w => .tpWrflag (immField w)⟩,
    ⟨0x13#5, .i27, 0x98000000#32, 0xF8000000#32, fun w => .tpWrextv (immField w)⟩,
    ⟨0x14#5, .i27, 0xA0000000#32, 0xF8000000#32, fun w => .tpWrhgt (immField w)⟩,
    ⟨0x15#5, .i27, 0xA8000000#32, 0xF8000000#32, fun w => .tpWrpos (immField w)⟩,
    ⟨0x16#5, .i27, 0xB0000000#32, 0xF8000000#32, fun w => .tpWrtxo (immField w)⟩,
    ⟨0x17#5, .i27, 0xB8000000#32, 0xF8000000#32, fun w => .tpWrrsv (immField w)⟩,
    ⟨0x18#5, .gv, 0xC0000000#32, 0xFFFFF0E0#32, fun w => .tpWrg (indexField w) (symbolField w)⟩,
    ⟨0x19#5, .s4, 0xC8000000#32, 0xFFFFFFF0#32, fun w => .tpSetlen (countField w)⟩,
    ⟨0x1A#5, .z, 0xD0000000#32, 0xFFFFFFFF#32, fun _ => .tpPack⟩,
    ⟨0x1B#5, .z, 0xD8000000#32, 0xFFFFFFFF#32, fun _ => .tpUnpack⟩,
    ⟨0x1C#5, .z, 0xE0000000#32, 0xFFFFFFFF#32, fun _ => .tpClr⟩ ]

/-- The rows of R73 for the control commands other than NOP. -/
def controlRows : List OpRow :=
  [ ⟨0x1D#5, .b8, 0xE8000000#32, 0xFFFFFF00#32, fun w => .rd (byteField w)⟩,
    ⟨0x1E#5, .z, 0xF0000000#32, 0xFFFFFFFF#32, fun _ => .errclr⟩,
    ⟨0x1F#5, .z, 0xF8000000#32, 0xFFFFFFFF#32, fun _ => .swreset⟩ ]

/-- The opcode map (R73). -/
def opcodeTable : List OpRow := polymodRows ++ packerRows ++ controlRows

/-- The row of an opcode; none for the reserved opcodes 0x08 to 0x0F (R74). -/
def rowOf (op : BitVec 5) : Option OpRow := opcodeTable.find? fun r => r.op == op

/-- Decode one word: the checks of R77 in their order, and the first that fails decides. Total on every word (R70). -/
def decode (w : Word) : Except DecodeFault Instr :=
  match rowOf (opField w) with
  | none => .error (.illegalOp (opField w))
  | some r =>
    if w &&& r.mask ≠ r.fixed then .error (.rsvdBits (opField w))
    else if (r.build w).wf then .ok (r.build w)
    else .error (.badIndex (opField w))

/-- The word of a command, written out as the pattern column of R71 has it: opcode, reserved zeros, operands. -/
def encode : Instr → Word
  | .nop => 0x00#5 ++ 0#27
  | .pmInit => 0x01#5 ++ 0#27
  | .pmStep v => 0x02#5 ++ 0#22 ++ v
  | .pmHrph c => 0x03#5 ++ 0#19 ++ c
  | .pmHrpl c => 0x04#5 ++ 0#19 ++ c
  | .pmPad6 => 0x05#5 ++ 0#27
  | .pmCsum t => 0x06#5 ++ 0#26 ++ Machine.targetBit t
  | .pmVerify => 0x07#5 ++ 0#27
  | .tpSetvar v => 0x10#5 ++ 0#24 ++ v
  | .tpWrmagic imm => 0x11#5 ++ imm
  | .tpWrflag imm => 0x12#5 ++ imm
  | .tpWrextv imm => 0x13#5 ++ imm
  | .tpWrhgt imm => 0x14#5 ++ imm
  | .tpWrpos imm => 0x15#5 ++ imm
  | .tpWrtxo imm => 0x16#5 ++ imm
  | .tpWrrsv imm => 0x17#5 ++ imm
  | .tpWrg i v => 0x18#5 ++ 0#15 ++ i ++ 0#3 ++ v
  | .tpSetlen n => 0x19#5 ++ 0#23 ++ n
  | .tpPack => 0x1A#5 ++ 0#27
  | .tpUnpack => 0x1B#5 ++ 0#27
  | .tpClr => 0x1C#5 ++ 0#27
  | .rd sel => 0x1D#5 ++ 0#19 ++ sel
  | .errclr => 0x1E#5 ++ 0#27
  | .swreset => 0x1F#5 ++ 0#27

/-- What the decoder reads from a word whose bits are numbered as spec/opcode_table.json numbers them: the command
word is one 32-bit word on a parallel port, so its number is its value (20_memory.md R56), and every bit above
`nbits` is 0. -/
def decodeTableWord (nbits w : Nat) : Option Instr :=
  match decode (BitVec.ofNat 32 (w % 2 ^ nbits)) with
  | .ok i => some i
  | .error _ => none

end Sys2Proof
end

