-- ==== Sys2Proof/Machine/Params.lean ====
section
/-! DEFINITION. The default parameters: those of 00_scope.md R7. A state holds the parameters its block has
(`State.config`); `State.reset` has these. The spec marks most of them as general
knowledge (93_implementation_defined.md GK1, GK2, GK5, GK6): log 4 and log 5. -/

namespace Sys2Proof.Machine

/-- `P_GEN[0..4]` (40_polymod.md R101; GK1). Log 4. -/
def defaultGen : Vector Acc 5 :=
  #v[0x3B6A57B2#30, 0x26508E6D#30, 0x1EA119FA#30, 0x3D4233DD#30, 0x2A1462B3#30]

/-- A field absent from a row: width 0 (41_txref_packer.md R131). The offset 0 is irrelevant: log 6. -/
def absent : Slot := ⟨0, 0⟩

/-- The rows of the default `P_LAYOUT` (R132), row v for TVAR = v. Rows 1 to 7 are
general knowledge by the spec's own mark: log 5. -/
def defaultLayout : Vector LayoutRow 8 :=
  let uniformStd : LayoutRow :=
    { n := 9, magic := ⟨0, 5⟩, flag := ⟨5, 1⟩, extv := absent, height := ⟨6, 24⟩, pos := ⟨30, 15⟩, txo := absent, rsv := absent }
  let uniformExt : LayoutRow :=
    { n := 12, magic := ⟨0, 5⟩, flag := ⟨5, 1⟩, extv := absent, height := ⟨6, 24⟩, pos := ⟨30, 15⟩, txo := ⟨45, 15⟩, rsv := absent }
  #v[ -- 0: LEGACY, MAIN, STD
      { n := 8, magic := ⟨0, 5⟩, flag := ⟨5, 1⟩, extv := absent, height := ⟨6, 21⟩, pos := ⟨27, 13⟩, txo := absent, rsv := absent },
      -- 1: LEGACY, MAIN, EXT
      { n := 11, magic := ⟨0, 5⟩, flag := ⟨5, 1⟩, extv := absent, height := ⟨6, 21⟩, pos := ⟨27, 13⟩, txo := ⟨40, 13⟩, rsv := ⟨53, 2⟩ },
      -- 2: LEGACY, TEST, STD
      { n := 10, magic := ⟨0, 5⟩, flag := ⟨5, 1⟩, extv := absent, height := ⟨6, 26⟩, pos := ⟨32, 18⟩, txo := absent, rsv := absent },
      -- 3: LEGACY, TEST, EXT
      { n := 13, magic := ⟨0, 5⟩, flag := ⟨5, 1⟩, extv := absent, height := ⟨6, 26⟩, pos := ⟨32, 18⟩, txo := ⟨50, 15⟩, rsv := absent },
      -- 4 and 6: UNIFORM, STD; 5 and 7: UNIFORM, EXT
      uniformStd, uniformExt, uniformStd, uniformExt ]

/-- The default configuration: `P_TARGET[0]` and `P_TARGET[1]` are those of 40_polymod.md R102 (GK2). -/
def defaultConfig : Config :=
  { gen := defaultGen, original := 0x00000001#30, modern := 0x2BC830A3#30, layout := defaultLayout }

end Sys2Proof.Machine
end

