-- ==== Sys2Proof/Machine/State.lean ====
section
/-! DEFINITION. The state of PMTX-v7 (10_state.md R20 to R29), the parameters the block is built with (R31),
what the host still has to hand over (R33), the state after reset, and the reasons a step can stop. -/

namespace Sys2Proof.Machine

/-- The five fault causes of the block (60_exceptions.md R201). Taking one is a NEXT state (R205), not a stop. -/
inductive FaultCode where
  | illegalOp | rsvdBits | badIndex | fieldRange | lenMismatch
deriving DecidableEq, Repr

/-- One thing the host side does to the block. DESIGN CHOICE: reset events stand in the host's list (log 1, log 3). -/
inductive PortEvent where
  /-- A command word on the command port (20_memory.md R50). -/
  | command (w : Word)
  /-- The hardware reset event (70_reset_and_hazards.md R240): between two commands (none), or while the given command
  word is in progress, which is then abandoned. -/
  | reset (inProgress : Option Word)
deriving DecidableEq, Repr

/-- Why the model stops with a fault. No command of the block raises one: a fault of the block is recorded in ERR
and the block goes on (R205). -/
inductive Fault where
  /-- Raised by `step` alone, when the host has nothing left to hand over: "The program ends when `hpc = n`"
  (10_state.md R33). Safe: the block has no step without a command (00_scope.md R11). Log 2. -/
  | programEnded
deriving DecidableEq, Repr

/-- Why an instruction has no meaning in the model. -/
inductive Refusal where
  /-- Raised by an arm of `exec` whose instruction has no meaning yet; no arm is. Safe. -/
  | notModelled (mnemonic : String)
deriving DecidableEq, Repr

/-- What a step reads: the block's registers (R20), the parameters the block is built with (R31: constants, no state of
the block) and the host's program and index (R33: no state of the block). -/
structure State where
  /-- ACC, the polymod accumulator (R21). -/
  acc     : Acc
  /-- CHK, the checksum latch (R22). -/
  chk     : Acc
  /-- VAR, the verification result: 0 NONE, 1 ORIGINAL, 2 MODERN (R23). -/
  var     : BitVec 2
  /-- TVAR, the txref variant select (R24). -/
  tvar    : BitVec 3
  /-- F[0..6], the field registers (R25). -/
  f       : Vector FieldWord 7
  /-- G[0..12], the group registers (R26). -/
  g       : Vector Symbol 13
  /-- GLEN, the group count (R27). -/
  glen    : BitVec 4
  /-- ERR, the code of the first fault since the last clear (R28). -/
  err     : BitVec 4
  /-- ERRINFO, its detail (R28). -/
  errInfo : BitVec 8
  /-- RESP, the response of the most recent command (R29). -/
  resp    : Word
  /-- `P_GEN`, `P_TARGET` and `P_LAYOUT` (00_scope.md R7), taken as an argument of the step. Hardwired: no step changes
  them (R31). They stand here because `step` has no other argument (DESIGN CHOICE, log 12). -/
  config  : Config
  /-- What the host hands over, in order (R33). Host state, not block state. -/
  prog    : List PortEvent
  /-- The host index into `prog` (R33). Host state, not block state. -/
  hpc     : Nat
deriving DecidableEq, Repr

/-- The state after reset (R20, R240), of a block with the default parameters of R7 (log 4, log 5), with a host that has
nothing to hand over yet (DESIGN CHOICE, log 1). -/
def State.reset : State :=
  { acc := 1#30, chk := 0#30, var := 0#2, tvar := 0#3, f := Vector.replicate 7 0#27, g := Vector.replicate 13 0#5,
    glen := 0#4, err := 0#4, errInfo := 0#8, resp := 0#32, config := defaultConfig, prog := [], hpc := 0 }

end Sys2Proof.Machine
end

