-- ==== Sys2Proof/Machine/Flags.lean ====
section
/-! DEFINITION. Every flag and status computation: the fault codes and details, the error word, the verification
result VAR and the STATUS view. -/

namespace Sys2Proof.Machine

/-- The number of a fault code, as ERR holds it (60_exceptions.md R201). -/
def FaultCode.number : FaultCode → BitVec 4
  | .illegalOp => 1#4
  | .rsvdBits => 2#4
  | .badIndex => 3#4
  | .fieldRange => 4#4
  | .lenMismatch => 5#4

/-- The code of a decode fault (R201). -/
def decodeFaultCode : DecodeFault → FaultCode
  | .illegalOp _ => .illegalOp
  | .rsvdBits _ => .rsvdBits
  | .badIndex _ => .badIndex

/-- The detail of a decode fault: ERRINFO = OP (R201; 30_encoding.md R74 to R76), zero-extended (log 7). -/
def decodeFaultInfo : DecodeFault → BitVec 8
  | .illegalOp op => op.setWidth 8
  | .rsvdBits op => op.setWidth 8
  | .badIndex op => op.setWidth 8

/-- The detail of FIELD_RANGE: the field id (R201; 41_txref_packer.md R145). -/
def fieldInfo (f : FieldId) : BitVec 8 := BitVec.ofNat 8 f.idx.val

/-- The detail of LEN_MISMATCH: GLEN (R201; R146), zero-extended (log 7). -/
def lengthInfo (glen : BitVec 4) : BitVec 8 := glen.setWidth 8

/-- The error word `0x80000000 | (ERRINFO << 8) | ERR` (10_state.md R29). -/
def errorWord (err : BitVec 4) (info : BitVec 8) : Word :=
  0x80000000#32 ||| (info.setWidth 32 <<< 8) ||| err.setWidth 32

/-- PM_VERIFY's result: MODERN tried first, then ORIGINAL, else NONE (40_polymod.md R110). -/
def verifyVar (c : Config) (acc : Acc) : BitVec 2 :=
  if acc = c.modern then 2#2 else if acc = c.original then 1#2 else 0#2

/-- The STATUS view (10_state.md R30), assembled from the registers as they stand: from bit 31 down, eight zeros,
GLEN, a zero, TVAR, ERRINFO, ERR, two zeros, VAR. -/
def statusWord (s : State) : Word :=
  0#8 ++ s.glen ++ 0#1 ++ s.tvar ++ s.errInfo ++ s.err ++ 0#2 ++ s.var

end Sys2Proof.Machine
end

