-- ==== Sys2Proof/Machine/Ops.lean ====
section
/-! DEFINITION. The named operations the meanings share: register access, taking a fault and returning from one,
blocking, the reset event, the host's port, the polymod step, and the pack and unpack datapaths. -/

namespace Sys2Proof.Machine

/-! ### Register files -/

/-- `F[f]` (00_scope.md R10; 10_state.md R25). -/
def State.readF (s : State) (f : FieldId) : FieldWord := s.f[f.idx]

/-- `F[f] <- v`. -/
def State.writeF (s : State) (f : FieldId) (v : FieldWord) : State := { s with f := s.f.set f.idx v }

/-- `G[i]` (R10; R26). -/
def State.readG (s : State) (i : Fin 13) : Symbol := s.g[i]

/-- `G[i] <- v`. -/
def State.writeG (s : State) (i : Fin 13) (v : Symbol) : State := { s with g := s.g.set i v }

/-- `RESP <- v` (R10; R29). -/
def State.respond (s : State) (v : Word) : State := { s with resp := v }

/-! ### Faults, blocking and reset -/

/-- Taking a fault (60_exceptions.md R205): the first record stands, RESP takes the error word of the record as it
stands after the command, nothing else is written. -/
def State.raise (s : State) (code : FaultCode) (info : BitVec 8) : State :=
  if s.err = 0#4 then
    { s with err := code.number, errInfo := info, resp := errorWord code.number info }
  else
    { s with resp := errorWord s.err s.errInfo }

/-- A blocked command (R206): RESP takes the pending error word and nothing else is written. -/
def State.blocked (s : State) : State := { s with resp := errorWord s.err s.errInfo }

/-- Returning from a fault (R207; 42_control.md R172): ERR and ERRINFO are cleared. -/
def State.clearFault (s : State) : State := { s with err := 0#4, errInfo := 0#8 }

/-- Every register of R20 takes its reset value (70_reset_and_hazards.md R240; 42_control.md R173).
The parameters are hardwired and stay (10_state.md R31); the host's program and index are not the block's and stay
(R33; log 3). -/
def State.resetRegisters (s : State) : State :=
  { State.reset with config := s.config, prog := s.prog, hpc := s.hpc }

/-- A command other than RD, ERRCLR and SWRESET runs only while no fault is pending (R206). -/
def unlessBlocked (s : State) (k : Host.Outcome State Fault Refusal) : Host.Outcome State Fault Refusal :=
  if s.err = 0#4 then k else .next s.blocked

/-- Ends a command that completed and returns no data: `RESP <- 0` (R29). -/
def complete (s : State) : Host.Outcome State Fault Refusal := .next (s.respond 0#32)

/-! ### The host's port -/

/-- What the host hands over next: `prog[hpc]`, none when the program has ended (R33). -/
def State.pending (s : State) : Option PortEvent := s.prog[s.hpc]?

/-- `hpc <- hpc + 1` (R33). -/
def State.advance (s : State) : State := { s with hpc := s.hpc + 1 }

/-- The host hands over `w` next: `prog[hpc]` becomes the command `w`, and no other entry changes.
Entries before `hpc` that do not exist (in no state a run reaches) are filled with NOP. -/
def State.placeCommand (s : State) (w : Word) : State :=
  { s with
    prog := s.prog.take s.hpc ++ List.replicate (s.hpc - s.prog.length) (.command 0#32)
      ++ .command w :: s.prog.drop (s.hpc + 1) }

/-! ### The polymod engine -/

/-- `STEP(acc, v)` (40_polymod.md R100): the low 25 bits shifted left by 5, XOR the symbol, XOR generator i for every
set bit i of the top five bits before the shift. -/
def polymodStep (gen : Vector Acc 5) (acc : Acc) (v : Symbol) : Acc :=
  let top := acc.extractLsb' 25 5
  let shifted := ((acc &&& 0x1FFFFFF#30) <<< 5) ^^^ v.setWidth 30
  (List.finRange 5).foldl (fun a (i : Fin 5) => if top.getLsbD i.val then a ^^^ gen[i] else a) shifted

/-- The steps for a sequence of symbols in order, starting from `acc`. -/
def polymodFrom (gen : Vector Acc 5) (acc : Acc) (vs : List Symbol) : Acc := vs.foldl (polymodStep gen) acc

/-- `ACC <- STEP(ACC, v)`. -/
def State.feed (s : State) (v : Symbol) : State := { s with acc := polymodStep s.config.gen s.acc v }

/-- CHKG[i] = CHK[29-5i : 25-5i], most significant group first (20_memory.md R53). -/
def chkGroup (chk : Acc) (i : Fin 6) : Symbol := chk.extractLsb' (25 - 5 * i.val) 5

/-! ### The txref packer (41_txref_packer.md R131, R134, R145, R146) -/

/-- `(1 << w) - 1`. -/
def widthMask (w : Nat) : Nat := (1 <<< w) - 1

/-- `BITS(v)`: the integer of the first n groups, group i at bit 5·i (R134; 20_memory.md R54). -/
def groupBits (g : Vector Symbol 13) (n : Nat) : Nat :=
  ((List.range n).map fun i => (g[i]?.getD 0#5).toNat <<< (5 * i)).sum

/-- `EXTRACT(v, f)` on the bitstream integer (R134): 0 for an absent field. -/
def extractField (row : LayoutRow) (bits : Nat) (f : FieldId) : Nat :=
  (bits >>> (row.slot f).off) &&& widthMask (row.slot f).width

/-- `DEPOSIT(v, F)` (R134): every field but RSV at its offset, ORed together. -/
def depositFields (row : LayoutRow) (F : Vector FieldWord 7) : Nat :=
  (FieldId.all.filter (· ≠ .rsv)).foldl
    (fun p f => p ||| ((F[f.idx].toNat &&& widthMask (row.slot f).width) <<< (row.slot f).off)) 0

/-- TP_PACK's check of one field (R145): RSV must be 0, every other field below 2^w. -/
def fieldFits (row : LayoutRow) (F : Vector FieldWord 7) (f : FieldId) : Bool :=
  if f = .rsv then F[f.idx] == 0#27 else decide (F[f.idx].toNat < 1 <<< (row.slot f).width)

/-- The first field that does not fit, lowest field id first (R145; 60_exceptions.md R203). -/
def firstUnfit (row : LayoutRow) (F : Vector FieldWord 7) : Option FieldId :=
  FieldId.all.find? fun f => !fieldFits row F f

/-- The thirteen groups TP_PACK writes: `G[i] <- (i < N(v)) ? P[5*i+4 : 5*i] : 0` (R145). -/
def packGroups (row : LayoutRow) (F : Vector FieldWord 7) : Vector Symbol 13 :=
  Vector.ofFn fun i : Fin 13 => if i.val < row.n then BitVec.ofNat 5 (depositFields row F >>> (5 * i.val)) else 0#5

/-- The seven fields TP_UNPACK writes: `F[f] <- zext_27(EXTRACT(v, f))` (R146). -/
def unpackFields (row : LayoutRow) (g : Vector Symbol 13) : Vector FieldWord 7 :=
  let bits := groupBits g row.n
  let value (f : FieldId) : FieldWord := BitVec.ofNat 27 (extractField row bits f)
  #v[value .magic, value .flag, value .extv, value .height, value .pos, value .txo, value .rsv]

/-- The layout row TVAR selects in the block's `P_LAYOUT` (41_txref_packer.md R131). -/
def State.row (s : State) : LayoutRow := layoutRow s.config s.tvar

/-! ### Readout -/

/-- value(sel), zero-extended to 32 bits (20_memory.md R52). -/
def State.readSelector (s : State) : Selector → Word
  | .acc => s.acc.setWidth 32
  | .chk => s.chk.setWidth 32
  | .status => statusWord s
  | .chkGroup i => (chkGroup s.chk i).setWidth 32
  | .field f => (s.readF f).setWidth 32
  | .group i => (s.readG i).setWidth 32

end Sys2Proof.Machine
end

