-- ==== Sys2Proof/Machine/Control.lean ====
section
/-! DEFINITION. The control commands (42_control.md R170 to R173). RD, ERRCLR and SWRESET are not blocked
(60_exceptions.md R206). -/

namespace Sys2Proof.Machine

/-- NOP: `RESP <- 0` (R170). -/
def execNop (s : State) : Host.Outcome State Fault Refusal :=
  unlessBlocked s (complete s)

/-- RD: `RESP <- zext_32(value(sel))` (R171). An unmapped selector faults BAD_INDEX (30_encoding.md R76); the decoder
already refuses such a word (log 8). -/
def execRd (sel : Byte) (s : State) : Host.Outcome State Fault Refusal :=
  match selectorOf sel with
  | some r => .next (s.respond (s.readSelector r))
  | none => .next (s.raise .badIndex 0x1D#8)

/-- ERRCLR: `ERR <- 0; ERRINFO <- 0; RESP <- 0` (R172). -/
def execErrclr (s : State) : Host.Outcome State Fault Refusal :=
  complete s.clearFault

/-- SWRESET: every register takes its reset value (R173). -/
def execSwreset (s : State) : Host.Outcome State Fault Refusal :=
  complete s.resetRegisters

end Sys2Proof.Machine
end

