-- ==== Sys2Proof/Machine/Packer.lean ====
section
/-! DEFINITION. The txref packer commands (41_txref_packer.md R135 to R147). -/

namespace Sys2Proof.Machine

/-- TP_SETVAR: `TVAR <- v` (R135). -/
def execTpSetvar (v : BitVec 3) (s : State) : Host.Outcome State Fault Refusal :=
  unlessBlocked s (complete { s with tvar := v })

/-- TP_WRMAGIC: `F[0] <- imm` (R136). -/
def execTpWrmagic (imm : FieldWord) (s : State) : Host.Outcome State Fault Refusal :=
  unlessBlocked s (complete (s.writeF .magic imm))

/-- TP_WRFLAG: `F[1] <- imm` (R137). -/
def execTpWrflag (imm : FieldWord) (s : State) : Host.Outcome State Fault Refusal :=
  unlessBlocked s (complete (s.writeF .flag imm))

/-- TP_WREXTV: `F[2] <- imm` (R138). -/
def execTpWrextv (imm : FieldWord) (s : State) : Host.Outcome State Fault Refusal :=
  unlessBlocked s (complete (s.writeF .extv imm))

/-- TP_WRHGT: `F[3] <- imm` (R139). -/
def execTpWrhgt (imm : FieldWord) (s : State) : Host.Outcome State Fault Refusal :=
  unlessBlocked s (complete (s.writeF .height imm))

/-- TP_WRPOS: `F[4] <- imm` (R140). -/
def execTpWrpos (imm : FieldWord) (s : State) : Host.Outcome State Fault Refusal :=
  unlessBlocked s (complete (s.writeF .pos imm))

/-- TP_WRTXO: `F[5] <- imm` (R141). -/
def execTpWrtxo (imm : FieldWord) (s : State) : Host.Outcome State Fault Refusal :=
  unlessBlocked s (complete (s.writeF .txo imm))

/-- TP_WRRSV: `F[6] <- imm` (R142). -/
def execTpWrrsv (imm : FieldWord) (s : State) : Host.Outcome State Fault Refusal :=
  unlessBlocked s (complete (s.writeF .rsv imm))

/-- TP_WRG: `G[i] <- v` (R143). An index above 12 faults BAD_INDEX before blocking is looked at (60_exceptions.md
R203); the decoder already refuses such a word (log 8). -/
def execTpWrg (i : BitVec 4) (v : Symbol) (s : State) : Host.Outcome State Fault Refusal :=
  if h : i.toNat < 13 then unlessBlocked s (complete (s.writeG ⟨i.toNat, h⟩ v))
  else .next (s.raise .badIndex 0x18#8)

/-- TP_SETLEN: `GLEN <- n` (R144). A count above 13 faults BAD_INDEX before blocking is looked at (R203; log 8). -/
def execTpSetlen (n : BitVec 4) (s : State) : Host.Outcome State Fault Refusal :=
  if groupCountLegal n then unlessBlocked s (complete { s with glen := n })
  else .next (s.raise .badIndex 0x19#8)

/-- TP_PACK: pack F into G by the row TVAR selects, or fault FIELD_RANGE on the lowest field that does not fit (R145). -/
def execTpPack (s : State) : Host.Outcome State Fault Refusal :=
  unlessBlocked s <|
    match firstUnfit s.row s.f with
    | some f => .next (s.raise .fieldRange (fieldInfo f))
    | none => complete { s with g := packGroups s.row s.f, glen := BitVec.ofNat 4 s.row.n }

/-- TP_UNPACK: unpack G into F by the row TVAR selects, or fault LEN_MISMATCH when GLEN is not its N (R146). -/
def execTpUnpack (s : State) : Host.Outcome State Fault Refusal :=
  unlessBlocked s <|
    if s.glen.toNat ≠ s.row.n then .next (s.raise .lenMismatch (lengthInfo s.glen))
    else complete { s with f := unpackFields s.row s.g }

/-- TP_CLR: clear F, G and GLEN (R147). TVAR stays. -/
def execTpClr (s : State) : Host.Outcome State Fault Refusal :=
  unlessBlocked s
    (complete { s with f := Vector.replicate 7 0#27, g := Vector.replicate 13 0#5, glen := 0#4 })

end Sys2Proof.Machine
end

