-- ==== Sys2Proof/Machine/Polymod.lean ====
section
/-! DEFINITION. The polymod engine commands (40_polymod.md R104 to R110). -/

namespace Sys2Proof.Machine

/-- PM_INIT: `ACC <- 1` (R104). -/
def execPmInit (s : State) : Host.Outcome State Fault Refusal :=
  unlessBlocked s (complete { s with acc := 1#30 })

/-- PM_STEP: feed one symbol (R105). -/
def execPmStep (v : Symbol) (s : State) : Host.Outcome State Fault Refusal :=
  unlessBlocked s (complete (s.feed v))

/-- PM_HRPH: feed the high part of a tag byte (R106). -/
def execPmHrph (c : Byte) (s : State) : Host.Outcome State Fault Refusal :=
  unlessBlocked s (complete (s.feed (tagHigh c)))

/-- PM_HRPL: feed the low part of a tag byte (R107). -/
def execPmHrpl (c : Byte) (s : State) : Host.Outcome State Fault Refusal :=
  unlessBlocked s (complete (s.feed (tagLow c)))

/-- PM_PAD6: feed the six checksum placeholders, one atomic command (R108). -/
def execPmPad6 (s : State) : Host.Outcome State Fault Refusal :=
  unlessBlocked s (complete { s with acc := polymodFrom s.config.gen s.acc (List.replicate 6 0#5) })

/-- PM_CSUM: `CHK <- ACC ^ P_TARGET[s]` (R109). -/
def execPmCsum (t : Target) (s : State) : Host.Outcome State Fault Refusal :=
  unlessBlocked s (complete { s with chk := s.acc ^^^ targetValue s.config t })

/-- PM_VERIFY: compare ACC with both targets (R110). A mismatch is no fault (60_exceptions.md R209). -/
def execPmVerify (s : State) : Host.Outcome State Fault Refusal :=
  unlessBlocked s (complete { s with var := verifyVar s.config s.acc })

end Sys2Proof.Machine
end

