-- ==== Sys2Proof/Machine/Dispatch.lean ====
section
/-! DEFINITION. One arm per command: each calls its own meaning. -/

namespace Sys2Proof.Machine

/-- What a command does to the state. -/
def exec (i : Instr) (s : State) : Host.Outcome State Fault Refusal :=
  match i with
  -- 40_polymod.md, and NOP of 42_control.md
  | .nop => Sys2Proof.Machine.execNop s
  | .pmInit => Sys2Proof.Machine.execPmInit s
  | .pmStep v => Sys2Proof.Machine.execPmStep v s
  | .pmHrph c => Sys2Proof.Machine.execPmHrph c s
  | .pmHrpl c => Sys2Proof.Machine.execPmHrpl c s
  | .pmPad6 => Sys2Proof.Machine.execPmPad6 s
  | .pmCsum t => Sys2Proof.Machine.execPmCsum t s
  | .pmVerify => Sys2Proof.Machine.execPmVerify s
  -- 41_txref_packer.md
  | .tpSetvar v => Sys2Proof.Machine.execTpSetvar v s
  | .tpWrmagic imm => Sys2Proof.Machine.execTpWrmagic imm s
  | .tpWrflag imm => Sys2Proof.Machine.execTpWrflag imm s
  | .tpWrextv imm => Sys2Proof.Machine.execTpWrextv imm s
  | .tpWrhgt imm => Sys2Proof.Machine.execTpWrhgt imm s
  | .tpWrpos imm => Sys2Proof.Machine.execTpWrpos imm s
  | .tpWrtxo imm => Sys2Proof.Machine.execTpWrtxo imm s
  | .tpWrrsv imm => Sys2Proof.Machine.execTpWrrsv imm s
  | .tpWrg k v => Sys2Proof.Machine.execTpWrg k v s
  | .tpSetlen n => Sys2Proof.Machine.execTpSetlen n s
  | .tpPack => Sys2Proof.Machine.execTpPack s
  | .tpUnpack => Sys2Proof.Machine.execTpUnpack s
  | .tpClr => Sys2Proof.Machine.execTpClr s
  -- 42_control.md
  | .rd sel => Sys2Proof.Machine.execRd sel s
  | .errclr => Sys2Proof.Machine.execErrclr s
  | .swreset => Sys2Proof.Machine.execSwreset s

end Sys2Proof.Machine
end

