-- ==== Sys2Proof/Machine/Command.lean ====
section
/-! DEFINITION. One command word, decoded and run (00_scope.md R11), one event on the ports, and a sequence of
commands in order. -/

namespace Sys2Proof.Machine

/-- The block's step on one command word (R11): decode, then the decode fault taken (30_encoding.md R77;
60_exceptions.md R205), or the decoded command run. -/
def runWord (w : Word) (s : State) : Host.Outcome State Fault Refusal :=
  match decode w with
  | .ok i => exec i s
  | .error d => .next (s.raise (decodeFaultCode d) (decodeFaultInfo d))

/-- One event on the ports. At a reset event a command in progress is abandoned: none of its writes happen and it
gets no response (70_reset_and_hazards.md R240). -/
def runEvent (e : PortEvent) (s : State) : Host.Outcome State Fault Refusal :=
  match e with
  | .command w => runWord w s
  | .reset _ => .next s.resetRegisters

/-- Commands run one after another in the order given (20_memory.md R62). -/
def execAll : List Instr → State → Host.Outcome State Fault Refusal
  | [], s => .next s
  | i :: is, s =>
    match exec i s with
    | .next t => execAll is t
    | .fault r => .fault r
    | .refused r => .refused r

end Sys2Proof.Machine
end

