-- ==== Sys2Proof/Machine/Step.lean ====
section
/-! DEFINITION. One step: what the host hands over next, at the host index (10_state.md R33). -/

namespace Sys2Proof.Machine

/-- Each step takes `prog[hpc]` and sets `hpc <- hpc + 1`; at the end of the program there is nothing to step (R33).
No command reads or writes `prog` or `hpc`, so the index is moved first. -/
def step (s : State) : Host.Outcome State Fault Refusal :=
  match s.pending with
  | some e => runEvent e s.advance
  | none => .fault .programEnded

/-- The host hands over the command word `w` next (log 1). Bits above `nbits` are 0. -/
def State.withFetchWord (s : State) (nbits w : Nat) : State :=
  s.placeCommand (BitVec.ofNat 32 (w % 2 ^ nbits))

end Sys2Proof.Machine
end

