-- ==== Sys2Proof/Machine/Pseudo.lean ====
section
/-! DEFINITION. The pseudo-instructions (30_encoding.md R81) as the command sequences they expand to, and the source's
functions that the polymod sequences compute (40_polymod.md R111, R112). -/

namespace Sys2Proof.Machine

/-- `pm.tag "s"` (R81): 2n + 1 commands. -/
def pmTag (tag : List Byte) : List Instr := tag.map .pmHrph ++ [.pmStep 0#5] ++ tag.map .pmHrpl

/-- `pm.data v1, …, vk` (R81). -/
def pmData (vs : List Symbol) : List Instr := vs.map .pmStep

/-- `pm.create t, "s", v1, …, vk` (R81). -/
def pmCreate (t : Target) (tag : List Byte) (vs : List Symbol) : List Instr :=
  [.pmInit] ++ pmTag tag ++ pmData vs ++ [.pmPad6, .pmCsum t]

/-- `pm.check "s", v1, …, vk` (R81), for any k: R81 states no least k, and k below six is the model's choice (DESIGN
CHOICE, log 9). -/
def pmCheck (tag : List Byte) (vs : List Symbol) : List Instr :=
  [.pmInit] ++ pmTag tag ++ pmData vs ++ [.pmVerify]

/-- `tp.wrgs v0, …, v(n-1)` (R81), for 1 ≤ n ≤ 13. -/
def tpWrgs (vs : List Symbol) : List Instr :=
  vs.zipIdx.map (fun p => .tpWrg (BitVec.ofNat 4 p.2) p.1) ++ [.tpSetlen (BitVec.ofNat 4 vs.length)]

/-- `tp.fields m, fl, e, h, p, t, r` (R81). -/
def tpFields (m fl e h p t r : FieldWord) : List Instr :=
  [.tpWrmagic m, .tpWrflag fl, .tpWrextv e, .tpWrhgt h, .tpWrpos p, .tpWrtxo t, .tpWrrsv r]

/-- The source's `expandTag` (R111): the characters' high 3 bits, one zero, the characters' low 5 bits. -/
def expandTag (tag : List Byte) : List Symbol :=
  tag.map (fun c => BitVec.ofNat 5 (c.toNat / 32)) ++ [0#5] ++ tag.map (fun c => BitVec.ofNat 5 (c.toNat % 32))

/-- The source's `polymod(values)`: the accumulator starts at 1 (R104, R111). -/
def polymod (c : Config) (vs : List Symbol) : Acc := polymodFrom c.gen 1#30 vs

/-- The source's `createChecksum`: polymod over tag, payload and six zero placeholders, XOR the target (R109, R111). -/
def createChecksum (c : Config) (tag : List Byte) (payload : List Symbol) (t : Target) : Acc :=
  polymod c (expandTag tag ++ payload ++ List.replicate 6 0#5) ^^^ targetValue c t

/-- The source's `verifyChecksum` (R110, R112): data is the payload with its six checksum symbols. -/
def verifyChecksum (c : Config) (tag : List Byte) (data : List Symbol) (t : Target) : Bool :=
  polymod c (expandTag tag ++ data) == targetValue c t

/-- The six checksum symbols in output order, CHKG[0] first (20_memory.md R53). -/
def checksumSymbols (chk : Acc) : List Symbol := (List.finRange 6).map (chkGroup chk)

end Sys2Proof.Machine
end

