-- ==== Sys2Proof/Machine/Algebra.lean ====
section
/-! DEFINITION. The algebraic reading of the polymod step (40_polymod.md R103), which the spec itself takes from
general knowledge and on which no meaning rests (PRESUMED, safe: log 11). -/

namespace Sys2Proof.Machine

/-- Twice a field element of GF(32), modulo x^5 + x^3 + 1. -/
def gfDouble (a : Symbol) : Symbol := (a <<< 1) ^^^ (if a.getLsbD 4 then 0b01001#5 else 0#5)

/-- The product in GF(32): the sum of a·2^i over the bits i of b. -/
def gfMul (a b : Symbol) : Symbol :=
  (List.finRange 5).foldl (fun r (i : Fin 5) => if b.getLsbD i.val then r ^^^ gfDouble^[i.val] a else r) 0#5

/-- The six low coefficients of g(x) = x^6 + 29x^5 + 22x^4 + 20x^3 + 21x^2 + 29x + 18, highest first. -/
def generatorCoeffs : Vector Symbol 6 := #v[29#5, 22#5, 20#5, 21#5, 29#5, 18#5]

/-- From the remainder r(x) of a polynomial p(x) modulo g(x), coefficients highest first, the remainder of
x·p(x) + v: shift, bring in v, and take x^6 away by the monic g(x). -/
def remainderStep (r : Vector Symbol 6) (v : Symbol) : Vector Symbol 6 :=
  Vector.ofFn fun k : Fin 6 => (r[k.val + 1]?.getD v) ^^^ gfMul r[0] generatorCoeffs[k]

/-- The remainder of x^n + v1·x^(n-1) + … + vn modulo g(x), by Horner's rule from the constant 1 (R103). -/
def remainder (vs : List Symbol) : Vector Symbol 6 :=
  vs.foldl remainderStep #v[0#5, 0#5, 0#5, 0#5, 0#5, 1#5]

end Sys2Proof.Machine
end

