-- ==== Sys2Proof/Machine/Asm.lean ====
section
/-! DEFINITION. The assembler (30_encoding.md R80, R81): one line of text to the command words it stands for, none
where the assembler refuses it. What R80 and R81 leave open (blanks, numerals, literals, the fewest
data symbols of `pm.data` and `pm.check`) is the model's choice: log 9. -/

namespace Sys2Proof.Machine

/-- An operand as written: a number (a character literal is its ASCII code), a name, or a string of bytes. -/
inductive AsmOperand where
  | num (n : Nat)
  | name (s : String)
  | str (bytes : List Byte)
deriving DecidableEq, Repr

/-- A piece of a line. -/
inductive AsmToken where
  | operand (o : AsmOperand)
  | comma
deriving DecidableEq, Repr

/-- What the reader of a line is inside of: nothing, a word, a string or a character literal; the characters read so
far stand last first. -/
inductive LexMode where
  | gap
  | word (seen : List Char)
  | str (seen : List Byte)
  | chr (seen : List Char)
deriving DecidableEq, Repr

/-- The value of a digit in a base, none for another character. -/
def digitValue (base : Nat) (c : Char) : Option Nat :=
  let n := c.toNat
  let d := if 48 ≤ n ∧ n ≤ 57 then some (n - 48)
    else if 97 ≤ n ∧ n ≤ 102 then some (n - 97 + 10)
    else if 65 ≤ n ∧ n ≤ 70 then some (n - 65 + 10)
    else none
  d.filter (· < base)

/-- The number a run of digits stands for, most significant first. -/
def digitsValue (base : Nat) (cs : List Char) : Option Nat :=
  cs.foldlM (fun a c => (digitValue base c).map (base * a + ·)) 0

/-- A word of a line: a number when it begins with a decimal digit (`0x` begins a hexadecimal one), else a name. -/
def wordOperand (cs : List Char) : Option AsmOperand :=
  match cs with
  | [] => none
  | '0' :: 'x' :: c :: rest => (digitsValue 16 (c :: rest)).map .num
  | c :: rest =>
    if (digitValue 10 c).isSome then (digitsValue 10 (c :: rest)).map .num else some (.name (String.ofList (c :: rest)))

/-- A word that has ended, put before the tokens that follow it. -/
def endWord (seen : List Char) (rest : Option (List AsmToken)) : Option (List AsmToken) := do
  let o ← wordOperand seen.reverse
  let ts ← rest
  return .operand o :: ts

/-- Space or tab. -/
def isBlank (c : Char) : Bool := c.toNat == 32 || c.toNat == 9

/-- The double quote, which opens and closes a string. -/
def isQuote (c : Char) : Bool := c.toNat == 34

/-- The apostrophe, which opens and closes a character literal. -/
def isApostrophe (c : Char) : Bool := c.toNat == 39

/-- The tokens of a line. -/
def lex : LexMode → List Char → Option (List AsmToken)
  | .gap, [] => some []
  | .word seen, [] => endWord seen (some [])
  | .str _, [] => none
  | .chr _, [] => none
  | .gap, c :: cs =>
    if isBlank c then lex .gap cs
    else if c = ',' then (lex .gap cs).map (.comma :: ·)
    else if isQuote c then lex (.str []) cs
    else if isApostrophe c then lex (.chr []) cs
    else lex (.word [c]) cs
  | .word seen, c :: cs =>
    if isBlank c then endWord seen (lex .gap cs)
    else if c = ',' then endWord seen ((lex .gap cs).map (.comma :: ·))
    else if isQuote c || isApostrophe c then none
    else lex (.word (c :: seen)) cs
  | .str seen, c :: cs =>
    if isQuote c then (lex .gap cs).map (.operand (.str seen.reverse) :: ·)
    else if c.toNat < 256 then lex (.str (BitVec.ofNat 8 c.toNat :: seen)) cs
    else none
  | .chr [], c :: cs => if c.toNat < 128 then lex (.chr [c]) cs else none
  | .chr (x :: _), c :: cs =>
    if isApostrophe c then (lex .gap cs).map (.operand (.num x.toNat) :: ·) else none

/-- Operands separated by commas (R80). -/
def separated : List AsmToken → Option (List AsmOperand)
  | [] => some []
  | [.operand o] => some [o]
  | .operand o :: .comma :: t :: ts => (separated (t :: ts)).map (o :: ·)
  | _ => none

/-- A number that fits the w bits of its operand; the assembler "refuses any operand outside its stated range". -/
def fit (w n : Nat) : Option (BitVec w) := if n < 2 ^ w then some (BitVec.ofNat w n) else none

/-- Numbers that are symbols, 0..31. -/
def symbols (ops : List AsmOperand) : Option (List Symbol) :=
  ops.mapM fun o => match o with
    | .num n => fit 5 n
    | _ => none

/-- Numbers that fit a field register, 0..2^27-1. -/
def fieldWords (ops : List AsmOperand) : Option (List FieldWord) :=
  ops.mapM fun o => match o with
    | .num n => fit 27 n
    | _ => none

/-- `orig` and `mod` (R80). -/
def targetNamed (s : String) : Option Target :=
  if s = "orig" then some .original else if s = "mod" then some .modern else none

/-- One of two names: false for the first, true for the second. -/
def oneOf (no yes s : String) : Option Bool := if s = no then some false else if s = yes then some true else none

/-- The names `rd` takes for the engine, the status and the fields (R80). -/
def selectorNamesA : List (String × Selector) :=
  [ ("acc", .acc), ("chk", .chk), ("status", .status),
    ("chkg0", .chkGroup 0), ("chkg1", .chkGroup 1), ("chkg2", .chkGroup 2),
    ("chkg3", .chkGroup 3), ("chkg4", .chkGroup 4), ("chkg5", .chkGroup 5),
    ("magic", .field .magic), ("flag", .field .flag), ("extv", .field .extv), ("height", .field .height),
    ("pos", .field .pos), ("txo", .field .txo), ("rsv", .field .rsv) ]

/-- The names `rd` takes for the group registers (R80). -/
def selectorNamesB : List (String × Selector) :=
  [ ("g0", .group 0), ("g1", .group 1), ("g2", .group 2), ("g3", .group 3), ("g4", .group 4), ("g5", .group 5),
    ("g6", .group 6), ("g7", .group 7), ("g8", .group 8), ("g9", .group 9), ("g10", .group 10), ("g11", .group 11),
    ("g12", .group 12) ]

/-- The selector byte of an `rd` operand: a selector number of the map, or a name (R80). -/
def selectorOperand : AsmOperand → Option Byte
  | .num n => (fit 8 n).filter fun c => (selectorOf c).isSome
  | .name s => ((selectorNamesA ++ selectorNamesB).find? fun p => p.1 = s).map fun p => selectorByte p.2
  | .str _ => none

/-- The commands of one line, from its mnemonic and operands (R80, R81). R81 states no least number of data symbols:
`pm.data` takes at least one, and `pm.check` takes any number, fewer than six or none among them (DESIGN CHOICE, log 9). -/
def assembleOps (mnemonic : String) (ops : List AsmOperand) : Option (List Instr) :=
  match mnemonic, ops with
  | "nop", [] => some [.nop]
  | "pm.init", [] => some [.pmInit]
  | "pm.step", [.num v] => (fit 5 v).map fun v => [.pmStep v]
  | "pm.hrph", [.num c] => (fit 8 c).map fun c => [.pmHrph c]
  | "pm.hrpl", [.num c] => (fit 8 c).map fun c => [.pmHrpl c]
  | "pm.pad6", [] => some [.pmPad6]
  | "pm.csum", [.name t] => (targetNamed t).map fun t => [.pmCsum t]
  | "pm.verify", [] => some [.pmVerify]
  | "tp.setvar", [.num v] => (fit 3 v).map fun v => [.tpSetvar v]
  | "tp.setvar", [.name l, .name n, .name s] => do
    let l ← oneOf "legacy" "uniform" l
    let n ← oneOf "main" "test" n
    let s ← oneOf "std" "ext" s
    return [.tpSetvar (tvarOf l n s)]
  | "tp.wrmagic", [.num x] => (fit 27 x).map fun x => [.tpWrmagic x]
  | "tp.wrflag", [.num x] => (fit 27 x).map fun x => [.tpWrflag x]
  | "tp.wrextv", [.num x] => (fit 27 x).map fun x => [.tpWrextv x]
  | "tp.wrhgt", [.num x] => (fit 27 x).map fun x => [.tpWrhgt x]
  | "tp.wrpos", [.num x] => (fit 27 x).map fun x => [.tpWrpos x]
  | "tp.wrtxo", [.num x] => (fit 27 x).map fun x => [.tpWrtxo x]
  | "tp.wrrsv", [.num x] => (fit 27 x).map fun x => [.tpWrrsv x]
  | "tp.wrg", [.num i, .num v] => do
    let i ← (fit 4 i).filter groupIndexLegal
    let v ← fit 5 v
    return [.tpWrg i v]
  | "tp.setlen", [.num n] => ((fit 4 n).filter groupCountLegal).map fun n => [.tpSetlen n]
  | "tp.pack", [] => some [.tpPack]
  | "tp.unpack", [] => some [.tpUnpack]
  | "tp.clr", [] => some [.tpClr]
  | "rd", [o] => (selectorOperand o).map fun c => [.rd c]
  | "errclr", [] => some [.errclr]
  | "swreset", [] => some [.swreset]
  | "pm.tag", [.str s] => some (pmTag s)
  | "pm.data", v :: vs => (symbols (v :: vs)).map pmData
  | "pm.create", .name t :: .str s :: vs => do
    let t ← targetNamed t
    let vs ← symbols vs
    return pmCreate t s vs
  | "pm.check", .str s :: vs => (symbols vs).map (pmCheck s)
  | "tp.wrgs", v :: vs => if vs.length < 13 then (symbols (v :: vs)).map tpWrgs else none
  | "tp.fields", [m, fl, e, h, p, t, r] => do
    let m ← fieldWords [m, fl, e, h, p, t, r]
    match m with
    | [m, fl, e, h, p, t, r] => return tpFields m fl e h p t r
    | _ => none
  | _, _ => none

/-- The commands a line of text stands for (R80, R81), none where the assembler refuses it. -/
def assembleLine (line : String) : Option (List Instr) :=
  match lex .gap line.toList with
  | some (.operand (.name m) :: ts) => (separated ts).bind (assembleOps m)
  | _ => none

/-- The command words of a line (R80: each mnemonic assembles to the one word of R73). -/
def assemble (line : String) : Option (List Word) := (assembleLine line).map (·.map encode)

end Sys2Proof.Machine
end

