-- ==== Sys2Proof/Safety.lean ====
section
/-! DEFINITION. What counts as a sound state and a fault-free command: the terms the statements use. -/

namespace Sys2Proof.Machine

/-- The records ERR and ERRINFO can hold together (60_exceptions.md R201, R202): a reserved opcode for ILLEGAL_OP; a
defined opcode whose format has reserved bits for RSVD_BITS; RD, TP_WRG or TP_SETLEN for BAD_INDEX; a field id for
FIELD_RANGE; a group count for LEN_MISMATCH. -/
def faultRecordLegal (err : BitVec 4) (info : BitVec 8) : Bool :=
  let n := info.toNat
  match err.toNat with
  | 0 => n == 0
  | 1 => 0x08 ≤ n && n ≤ 0x0F
  | 2 => n ≤ 0x1F && !(0x08 ≤ n && n ≤ 0x0F) && !(0x11 ≤ n && n ≤ 0x17)
  | 3 => n == 0x18 || n == 0x19 || n == 0x1D
  | 4 => n ≤ 6
  | 5 => n ≤ 13
  | _ => false

/-- What holds of the registers in every state a run from reset reaches. -/
structure State.Inv (s : State) : Prop where
  /-- The parameters are a configuration of this block (41_txref_packer.md R133; 40_polymod.md R102). -/
  configLegal : s.config.Legal
  /-- No command writes 3 to VAR (10_state.md R23). -/
  varLegal : s.var ≠ 3#2
  /-- No command can write a GLEN above 13 (R27). -/
  glenLegal : s.glen.toNat ≤ 13
  /-- ERR and ERRINFO hold no record or one of R201. -/
  recordLegal : faultRecordLegal s.err s.errInfo = true
  /-- RESP is an error word only of the record that is pending (R29). -/
  respLegal : s.resp.getLsbD 31 = true → s.err ≠ 0#4 ∧ s.resp = errorWord s.err s.errInfo

/-- The commands that a pending fault does not block: RD, ERRCLR and SWRESET (60_exceptions.md R206). -/
def unblocked : Instr → Bool
  | .rd _ | .errclr | .swreset => true
  | .nop | .pmInit | .pmStep _ | .pmHrph _ | .pmHrpl _ | .pmPad6 | .pmCsum _ | .pmVerify => false
  | .tpSetvar _ | .tpWrmagic _ | .tpWrflag _ | .tpWrextv _ | .tpWrhgt _ | .tpWrpos _ | .tpWrtxo _ | .tpWrrsv _ => false
  | .tpWrg _ _ | .tpSetlen _ | .tpPack | .tpUnpack | .tpClr => false

/-- A field passes TP_PACK's check in a layout row (41_txref_packer.md R145): RSV is 0, another field is below 2^w. -/
abbrev Fits (row : LayoutRow) (F : Vector FieldWord 7) (f : FieldId) : Prop :=
  if f = .rsv then F[f.idx] = 0#27 else F[f.idx].toNat < 2 ^ (row.slot f).width

/-- Every field passes (R148's premise on F). -/
def FieldsFit (row : LayoutRow) (F : Vector FieldWord 7) : Prop := ∀ f, Fits row F f

/-- Field f covers bitstream position p in a layout row (20_memory.md R55). -/
abbrev Covers (row : LayoutRow) (f : FieldId) (p : Nat) : Prop :=
  (row.slot f).off ≤ p ∧ p < (row.slot f).off + (row.slot f).width

/-- What a field write command must be (R136 to R142): its encoding (OP and a 27-bit immediate), its effect when no
fault is pending, and blocking when one is. -/
def WritesField (mk : FieldWord → Instr) (op : BitVec 5) (k : Fin 7) : Prop :=
  (∀ imm, decode (op ++ imm) = .ok (mk imm))
    ∧ (∀ imm s, s.err = 0#4 → exec (mk imm) s = .next { s with f := s.f.set k imm, resp := 0x00000000#32 })
    ∧ (∀ imm s, s.err ≠ 0#4 → exec (mk imm) s = .next { s with resp := errorWord s.err s.errInfo })

end Sys2Proof.Machine
end

