-- ==== Sys2Proof/Certificates/Slice0/Obligations.lean ====
section
/-! DEFINITION. The statements about PMTX-v7. Every docstring names the rule it formalises, or says that it is derived.
A statement of a command gives the WHOLE next state, so it is at once the command's result, its frame and its
completion. -/

open Sys2Proof Sys2Proof.Machine

/-! ### Encoding -/

/-- R82: the worked encodings assemble, decode, and `tp.setlen 14` does neither. -/
def Obligations.WorkedEncodingsAssembleAndDecode : Prop :=
  (assemble "pm.step 17" = some [0x10000011#32] ∧ decode 0x10000011#32 = .ok (.pmStep 17#5)) ∧
  (assemble "pm.hrph 'x'" = some [0x18000078#32] ∧ decode 0x18000078#32 = .ok (.pmHrph 0x78#8)) ∧
  (assemble "pm.csum mod" = some [0x30000001#32] ∧ decode 0x30000001#32 = .ok (.pmCsum .modern)) ∧
  (assemble "tp.setvar uniform, test, ext" = some [0x80000007#32] ∧ decode 0x80000007#32 = .ok (.tpSetvar 7#3)) ∧
  (assemble "tp.wrhgt 466793" = some [0xA0071F69#32] ∧ decode 0xA0071F69#32 = .ok (.tpWrhgt 466793#27)) ∧
  (assemble "tp.wrg 12, 31" = some [0xC0000C1F#32] ∧ decode 0xC0000C1F#32 = .ok (.tpWrg 12#4 31#5)) ∧
  (assemble "rd chkg5" = some [0xE800000D#32] ∧ decode 0xE800000D#32 = .ok (.rd 0x0D#8)) ∧
  assemble "tp.setlen 14" = none ∧ decode 0xC800000E#32 = .error (.badIndex 0x19#5) ∧
  ∀ s, s.err = 0#4 →
    runWord 0xC800000E#32 s = .next { s with err := 3#4, errInfo := 0x19#8, resp := 0x80001903#32 }

/-- R73 with the formats of R71: the 24 rows, that a mask is everything but the operand bits of the row's format,
what each row's command reads from the word, and when a word is a row's command. -/
def Obligations.OpcodeMapDecides : Prop :=
  (opcodeTable.map fun r => (r.op, r.fixed, r.mask)) =
    [ (0x00#5, 0x00000000#32, 0xFFFFFFFF#32), (0x01#5, 0x08000000#32, 0xFFFFFFFF#32),
      (0x02#5, 0x10000000#32, 0xFFFFFFE0#32), (0x03#5, 0x18000000#32, 0xFFFFFF00#32),
      (0x04#5, 0x20000000#32, 0xFFFFFF00#32), (0x05#5, 0x28000000#32, 0xFFFFFFFF#32),
      (0x06#5, 0x30000000#32, 0xFFFFFFFE#32), (0x07#5, 0x38000000#32, 0xFFFFFFFF#32),
      (0x10#5, 0x80000000#32, 0xFFFFFFF8#32), (0x11#5, 0x88000000#32, 0xF8000000#32),
      (0x12#5, 0x90000000#32, 0xF8000000#32), (0x13#5, 0x98000000#32, 0xF8000000#32),
      (0x14#5, 0xA0000000#32, 0xF8000000#32), (0x15#5, 0xA8000000#32, 0xF8000000#32),
      (0x16#5, 0xB0000000#32, 0xF8000000#32), (0x17#5, 0xB8000000#32, 0xF8000000#32),
      (0x18#5, 0xC0000000#32, 0xFFFFF0E0#32), (0x19#5, 0xC8000000#32, 0xFFFFFFF0#32),
      (0x1A#5, 0xD0000000#32, 0xFFFFFFFF#32), (0x1B#5, 0xD8000000#32, 0xFFFFFFFF#32),
      (0x1C#5, 0xE0000000#32, 0xFFFFFFFF#32), (0x1D#5, 0xE8000000#32, 0xFFFFFF00#32),
      (0x1E#5, 0xF0000000#32, 0xFFFFFFFF#32), (0x1F#5, 0xF8000000#32, 0xFFFFFFFF#32) ] ∧
  (∀ r ∈ opcodeTable, r.mask = ~~~ r.format.operandBits) ∧
  (∀ w, (opcodeTable.map fun r => r.build w) =
    [ .nop, .pmInit, .pmStep (w.extractLsb' 0 5), .pmHrph (w.extractLsb' 0 8), .pmHrpl (w.extractLsb' 0 8), .pmPad6,
      .pmCsum (if w.getLsbD 0 then .modern else .original), .pmVerify,
      .tpSetvar (w.extractLsb' 0 3), .tpWrmagic (w.extractLsb' 0 27), .tpWrflag (w.extractLsb' 0 27),
      .tpWrextv (w.extractLsb' 0 27), .tpWrhgt (w.extractLsb' 0 27), .tpWrpos (w.extractLsb' 0 27),
      .tpWrtxo (w.extractLsb' 0 27), .tpWrrsv (w.extractLsb' 0 27),
      .tpWrg (w.extractLsb' 8 4) (w.extractLsb' 0 5), .tpSetlen (w.extractLsb' 0 4), .tpPack, .tpUnpack, .tpClr,
      .rd (w.extractLsb' 0 8), .errclr, .swreset ]) ∧
  ∀ w, ∀ r ∈ opcodeTable, w &&& r.mask = r.fixed → (r.build w).wf = true → decode w = .ok (r.build w)

/-- Derived from R70 to R73: decoding the encoding of a well-formed command gives the command back. -/
def Obligations.DecodeOfEncodeIsTheCommand : Prop :=
  ∀ i : Instr, i.wf = true → decode (encode i) = .ok i

/-- Derived from R70, R73 and R78: a word that decodes is the one encoding of its command, and the command is
well-formed; so two words never decode to one command. -/
def Obligations.DecodedWordIsTheEncoding : Prop :=
  ∀ w i, decode w = .ok i → i.wf = true ∧ encode i = w

/-- R74: a reserved opcode faults ILLEGAL_OP with ERRINFO = OP, and nothing else happens. -/
def Obligations.ReservedOpcodeFaults : Prop :=
  ∀ w : Word, 0x08 ≤ (w.extractLsb' 27 5).toNat → (w.extractLsb' 27 5).toNat ≤ 0x0F →
    decode w = .error (.illegalOp (w.extractLsb' 27 5)) ∧
    ∀ s, s.err = 0#4 →
      runWord w s = .next { s with
        err := 1#4, errInfo := (w.extractLsb' 27 5).setWidth 8,
        resp := 0x80000001#32 ||| ((w.extractLsb' 27 5).setWidth 32 <<< 8) }

/-- R75: a defined opcode with a nonzero reserved bit (a bit of w[26:0] outside its format's operands) faults
RSVD_BITS with ERRINFO = OP, and is not executed. -/
def Obligations.ReservedBitsFault : Prop :=
  ∀ r ∈ opcodeTable, ∀ w : Word, w.extractLsb' 27 5 = r.op →
    w &&& 0x07FFFFFF#32 &&& ~~~ r.format.operandBits ≠ 0#32 →
    decode w = .error (.rsvdBits r.op) ∧
    ∀ s, s.err = 0#4 →
      runWord w s = .next { s with
        err := 2#4, errInfo := r.op.setWidth 8, resp := 0x80000002#32 ||| (r.op.setWidth 32 <<< 8) }

/-- R76: an RD selector outside the map, a TP_WRG index above 12 and a TP_SETLEN count above 13 fault BAD_INDEX with
ERRINFO = OP, and no other operand value of any command is refused at decode. -/
def Obligations.IndexOutsideItsSpaceFaults : Prop :=
  (∀ c : Byte, (c.toNat ≤ 2 ∨ (0x08 ≤ c.toNat ∧ c.toNat ≤ 0x0D) ∨ (0x10 ≤ c.toNat ∧ c.toNat ≤ 0x16)
      ∨ (0x20 ≤ c.toNat ∧ c.toNat ≤ 0x2C)) ∨ decode (0x1D#5 ++ 0#19 ++ c) = .error (.badIndex 0x1D#5)) ∧
  (∀ (i : BitVec 4) (v : Symbol), 12 < i.toNat →
    decode (0x18#5 ++ 0#15 ++ i ++ 0#3 ++ v) = .error (.badIndex 0x18#5)) ∧
  (∀ n : BitVec 4, 13 < n.toNat → decode (0x19#5 ++ 0#23 ++ n) = .error (.badIndex 0x19#5)) ∧
  (∀ w op, decode w = .error (.badIndex op) →
    op = w.extractLsb' 27 5 ∧
    ((op = 0x1D#5 ∧ ¬ ((w.extractLsb' 0 8).toNat ≤ 2
        ∨ (0x08 ≤ (w.extractLsb' 0 8).toNat ∧ (w.extractLsb' 0 8).toNat ≤ 0x0D)
        ∨ (0x10 ≤ (w.extractLsb' 0 8).toNat ∧ (w.extractLsb' 0 8).toNat ≤ 0x16)
        ∨ (0x20 ≤ (w.extractLsb' 0 8).toNat ∧ (w.extractLsb' 0 8).toNat ≤ 0x2C)))
      ∨ (op = 0x18#5 ∧ 12 < (w.extractLsb' 8 4).toNat) ∨ (op = 0x19#5 ∧ 13 < (w.extractLsb' 0 4).toNat))) ∧
  ∀ w op s, decode w = .error (.badIndex op) → s.err = 0#4 →
    runWord w s = .next { s with
      err := 3#4, errInfo := op.setWidth 8, resp := 0x80000003#32 ||| (op.setWidth 32 <<< 8) }

/-- Derived from R77, R203 and C10: a word that fails decode while a fault is pending does not execute, whatever its
opcode, and its response carries the pending record. The second clause is the model's choice (log 8): `exec` of a
command that no word decodes to takes BAD_INDEX with the command's opcode, in every state. -/
def Obligations.UndecodedWordWhilePendingKeepsTheRecord : Prop :=
  (∀ w s, s.err ≠ 0#4 → (∀ i, decode w ≠ .ok i) →
    runWord w s = .next { s with resp := 0x80000000#32 ||| (s.errInfo.setWidth 32 <<< 8) ||| s.err.setWidth 32 }) ∧
  ∀ (i : Instr) s, i.wf = false →
    exec i s = .next (s.raise .badIndex (((encode i).extractLsb' 27 5).setWidth 8))

/-- Derived from R80 and its last sentence ("It never emits a word that faults at decode"); the conventions R80 and R81
leave open are the model's (log 9). -/
def Obligations.AssemblerEmitsOnlyDecodableWords : Prop :=
  ∀ line ws, assemble line = some ws → ∀ w ∈ ws, ∃ i, decode w = .ok i

/-! ### The step -/

/-- Derived from R11 and R33: a step takes the command word the host hands over, decodes it, and runs the decoded
command, with the host index moved past the word (the host's list in State is the model's choice, log 1). -/
def Obligations.StepRunsTheDecodedCommand : Prop :=
  (∀ (s : State) w i, s.prog[s.hpc]? = some (.command w) → decode w = .ok i →
    step s = exec i { s with hpc := s.hpc + 1 }) ∧
  (∀ (s : State) w d, s.prog[s.hpc]? = some (.command w) → decode w = .error d →
    step s = .next ({ s with hpc := s.hpc + 1 }.raise (decodeFaultCode d) (decodeFaultInfo d))) ∧
  ∀ (s : State) o, s.prog[s.hpc]? = some (.reset o) → step s = .next { s with hpc := s.hpc + 1 }.resetRegisters

/-- Derived from R33: the host index starts at 0, advances by one in every step and never wraps, the program stays as
it is, and there is no step exactly when the program has ended (stopping there is the model's choice, log 2). -/
def Obligations.HostIndexAdvancesByOne : Prop :=
  State.reset.hpc = 0 ∧
  (∀ s t, step s = .next t → t.hpc = s.hpc + 1 ∧ t.prog = s.prog) ∧
  (∀ s, step s = .fault .programEnded ↔ s.prog.length ≤ s.hpc) ∧
  ∀ s : State, s.hpc < s.prog.length → ∃ t, step s = .next t

/-- Derived from R33 (the model's choice, log 1): the word placed by `withFetchWord` is the one the next step runs. -/
def Obligations.PlacedWordIsRunNext : Prop :=
  ∀ (s : State) (w : Nat), w < 2 ^ 32 →
    ∃ p, step (s.withFetchWord 32 w) = runWord (BitVec.ofNat 32 w) { s with prog := p, hpc := s.hpc + 1 }

/-- R11: every command word completes, faults (only the writes of R205) or is blocked (only the writes of R206); none
hangs. -/
def Obligations.EveryWordCompletesFaultsOrIsBlocked : Prop :=
  ∀ w s, ∃ t, runWord w s = .next t ∧
    ((∃ i, decode w = .ok i ∧ (s.err = 0#4 ∨ unblocked i = true) ∧ t.resp.getLsbD 31 = false)
      ∨ (s.err = 0#4 ∧ ∃ (code : FaultCode) (info : BitVec 8),
          t = { s with err := code.number, errInfo := info, resp := errorWord code.number info })
      ∨ (s.err ≠ 0#4 ∧ t = { s with resp := errorWord s.err s.errInfo }))

/-- R59: a command that faults or is blocked (its response has bit 31 set) writes only ERR, ERRINFO (when ERR was 0)
and RESP; TP_PACK writes all thirteen groups and GLEN or none, TP_UNPACK all seven fields or none. -/
def Obligations.CommandsAreAtomic : Prop :=
  (∀ w s t, runWord w s = .next t → t.resp.getLsbD 31 = true →
    t = { s with err := t.err, errInfo := t.errInfo, resp := t.resp } ∧
    (s.err ≠ 0#4 → t.err = s.err ∧ t.errInfo = s.errInfo)) ∧
  (∀ s t, exec .tpPack s = .next t →
    (t.g = packGroups s.row s.f ∧ t.glen = BitVec.ofNat 4 s.row.n) ∨ (t.g = s.g ∧ t.glen = s.glen)) ∧
  ∀ s t, exec .tpUnpack s = .next t → t.f = unpackFields s.row s.g ∨ t.f = s.f

/-! ### Reset and invariants -/

/-- R20: the reset value of every register. -/
def Obligations.ResetValues : Prop :=
  State.reset.acc = 0x00000001#30 ∧ State.reset.chk = 0x00000000#30 ∧ State.reset.var = 0#2 ∧ State.reset.tvar = 0#3 ∧
  (∀ k : Fin 7, State.reset.f[k] = 0#27) ∧ (∀ i : Fin 13, State.reset.g[i] = 0#5) ∧ State.reset.glen = 0#4 ∧
  State.reset.err = 0#4 ∧ State.reset.errInfo = 0#8 ∧ State.reset.resp = 0x00000000#32

/-- Derived from R240 and R173: at the reset event every register takes its reset value, a command in progress leaves no
trace, the block accepts commands afterwards, and SWRESET gives the same state. The parameters stay (R31); that `prog`
and `hpc` stay is the model's choice (log 3). -/
def Obligations.HardwareResetEvent : Prop :=
  ∀ (s : State) (inProgress : Option Word),
    let r : State :=
      { acc := 0x00000001#30, chk := 0#30, var := 0#2, tvar := 0#3, f := Vector.replicate 7 0#27,
        g := Vector.replicate 13 0#5, glen := 0#4, err := 0#4, errInfo := 0#8, resp := 0#32,
        config := s.config, prog := s.prog, hpc := s.hpc }
    runEvent (.reset inProgress) s = .next r ∧ exec .swreset s = .next r ∧ ∀ w, ∃ t, runWord w r = .next t

/-- The reset state satisfies the invariant of `State.Inv`. -/
def Obligations.ResetSatisfiesTheInvariant : Prop := State.reset.Inv

/-- Derived from R23, R27, R29, R133, R201 and R202: from every state that satisfies it, a step keeps the invariant:
the parameters are a configuration of this block (as they are at every step: R31), VAR is never 3, GLEN never above
13, ERR and ERRINFO hold no record or one of R201, and a RESP with bit 31 set is the error word of the pending record.
-/
def Obligations.StepKeepsTheInvariant : Prop :=
  ∀ s t : State, s.Inv → step s = .next t → t.Inv

/-- R29: what RESP holds after a command word. -/
def Obligations.ResponseWordOfEveryCommand : Prop :=
  State.reset.resp = 0#32 ∧
  ∀ w s t, runWord w s = .next t →
    (∀ d, decode w = .error d →
      t.resp = 0x80000000#32 ||| (t.errInfo.setWidth 32 <<< 8) ||| t.err.setWidth 32) ∧
    (∀ i, decode w = .ok i → s.err ≠ 0#4 → unblocked i = false →
      t.resp = 0x80000000#32 ||| (t.errInfo.setWidth 32 <<< 8) ||| t.err.setWidth 32) ∧
    (∀ i, decode w = .ok i → s.err = 0#4 → t.err ≠ 0#4 → unblocked i = false →
      t.resp = 0x80000000#32 ||| (t.errInfo.setWidth 32 <<< 8) ||| t.err.setWidth 32) ∧
    (∀ c r, decode w = .ok (.rd c) → selectorOf c = some r →
      t.resp = s.readSelector r ∧ t.resp.getLsbD 31 = false) ∧
    (∀ i, decode w = .ok i → (∀ c, i ≠ .rd c) → t.err = 0#4 → t.resp = 0x00000000#32)

/-! ### Faults -/

/-- R205: fault entry. -/
def Obligations.FaultEntryRecordsTheFirstFault : Prop :=
  ∀ (s : State) (code : FaultCode) (info : BitVec 8),
    (s.err = 0#4 → s.raise code info = { s with
      err := code.number, errInfo := info,
      resp := 0x80000000#32 ||| (info.setWidth 32 <<< 8) ||| code.number.setWidth 32 }) ∧
    (s.err ≠ 0#4 → s.raise code info = { s with
      resp := 0x80000000#32 ||| (s.errInfo.setWidth 32 <<< 8) ||| s.err.setWidth 32 })

/-- R206: while ERR is not 0, every decoded-legal command other than RD, ERRCLR and SWRESET is blocked, and those three
execute normally. -/
def Obligations.PendingFaultBlocks : Prop :=
  ∀ s : State, s.err ≠ 0#4 →
    (∀ i : Instr, i.wf = true → i ≠ .errclr → i ≠ .swreset → (∀ c, i ≠ .rd c) →
      exec i s = .next { s with
        resp := 0x80000000#32 ||| (s.errInfo.setWidth 32 <<< 8) ||| s.err.setWidth 32 }) ∧
    (∀ c r, selectorOf c = some r → exec (.rd c) s = .next { s with resp := s.readSelector r }) ∧
    exec .errclr s = .next { s with err := 0#4, errInfo := 0#8, resp := 0x00000000#32 } ∧
    exec .swreset s = .next { State.reset with config := s.config, prog := s.prog, hpc := s.hpc }

/-- R207 and R208: while a fault is pending, every event completes; ERRCLR clears ERR and ERRINFO; SWRESET and hardware
reset clear them and give every register its reset value; after every other event (a word that fails decode among them)
ERR and ERRINFO both stand as they were. -/
def Obligations.OnlyClearOrResetEndsBlocking : Prop :=
  ∀ (e : PortEvent) (s : State), s.err ≠ 0#4 → ∃ t, runEvent e s = .next t ∧
    ((∃ w, e = .command w ∧ decode w = .ok .errclr) → t.err = 0#4 ∧ t.errInfo = 0#8) ∧
    ((∃ o, e = .reset o) ∨ (∃ w, e = .command w ∧ decode w = .ok .swreset) →
      t.err = 0#4 ∧ t.errInfo = 0#8 ∧
      { t with config := State.reset.config, prog := State.reset.prog, hpc := State.reset.hpc } = State.reset) ∧
    ((∀ o, e ≠ .reset o) → (∀ w, e = .command w → decode w ≠ .ok .errclr ∧ decode w ≠ .ok .swreset) →
      t.err = s.err ∧ t.errInfo = s.errInfo)

/-- R202: which faults each command can raise (a decode fault carries the word's own opcode), and that none depends on
ACC, CHK or VAR. -/
def Obligations.WhichFaultsEachCommandRaises : Prop :=
  (∀ w op, decode w = .error (.illegalOp op) → op = w.extractLsb' 27 5 ∧ 0x08 ≤ op.toNat ∧ op.toNat ≤ 0x0F) ∧
  (∀ w op, decode w = .error (.rsvdBits op) → op = w.extractLsb' 27 5 ∧
    ¬ (0x08 ≤ op.toNat ∧ op.toNat ≤ 0x0F) ∧ ¬ (0x11 ≤ op.toNat ∧ op.toNat ≤ 0x17)) ∧
  (∀ w op, decode w = .error (.badIndex op) →
    op = w.extractLsb' 27 5 ∧ (op = 0x1D#5 ∨ op = 0x18#5 ∨ op = 0x19#5)) ∧
  (∀ i s t, i.wf = true → s.err = 0#4 → exec i s = .next t →
    t.err = 0#4 ∨ (i = .tpPack ∧ t.err = 4#4) ∨ (i = .tpUnpack ∧ t.err = 5#4)) ∧
  ∀ i (s : State) acc chk var t u, exec i s = .next t → exec i { s with acc := acc, chk := chk, var := var } = .next u →
    u.err = t.err ∧ u.errInfo = t.errInfo

/-! ### Control commands -/

/-- R170. -/
def Obligations.NopOnlyAnswers : Prop :=
  decode 0x00000000#32 = .ok .nop ∧
  (∀ w : Word, w.extractLsb' 27 5 = 0x00#5 → w ≠ 0#32 → decode w = .error (.rsvdBits 0x00#5)) ∧
  (∀ s, s.err = 0#4 → exec .nop s = .next { s with resp := 0x00000000#32 }) ∧
  (∀ s, s.err ≠ 0#4 → exec .nop s = .next { s with resp := errorWord s.err s.errInfo }) ∧
  ∀ s t, exec .nop s = .next t → (t.resp.getLsbD 31 = true ↔ s.err ≠ 0#4)

/-- R171 with the map of R52 and the slices of R53: RD of every selector, in every state (a pending fault does not
block it). -/
def Obligations.RdReadsTheSelectorMap : Prop :=
  (∀ s, exec (.rd 0x00#8) s = .next { s with resp := s.acc.setWidth 32 }) ∧
  (∀ s, exec (.rd 0x01#8) s = .next { s with resp := s.chk.setWidth 32 }) ∧
  (∀ s, exec (.rd 0x02#8) s = .next { s with resp := statusWord s }) ∧
  (∀ s, ∀ i : Fin 6, exec (.rd (BitVec.ofNat 8 (0x08 + i.val))) s
    = .next { s with resp := (s.chk.extractLsb' (25 - 5 * i.val) 5).setWidth 32 }) ∧
  (∀ s, ∀ k : Fin 7, exec (.rd (BitVec.ofNat 8 (0x10 + k.val))) s = .next { s with resp := s.f[k].setWidth 32 }) ∧
  (∀ s, ∀ i : Fin 13, exec (.rd (BitVec.ofNat 8 (0x20 + i.val))) s = .next { s with resp := s.g[i].setWidth 32 }) ∧
  (∀ c : Byte, c.toNat ≤ 2 ∨ (0x08 ≤ c.toNat ∧ c.toNat ≤ 0x0D) ∨ (0x10 ≤ c.toNat ∧ c.toNat ≤ 0x16)
      ∨ (0x20 ≤ c.toNat ∧ c.toNat ≤ 0x2C) → decode (0x1D#5 ++ 0#19 ++ c) = .ok (.rd c)) ∧
  (∀ (c : Byte) s, ¬ (c.toNat ≤ 2 ∨ (0x08 ≤ c.toNat ∧ c.toNat ≤ 0x0D) ∨ (0x10 ≤ c.toNat ∧ c.toNat ≤ 0x16)
      ∨ (0x20 ≤ c.toNat ∧ c.toNat ≤ 0x2C)) →
    decode (0x1D#5 ++ 0#19 ++ c) = .error (.badIndex 0x1D#5) ∧
    runWord (0x1D#5 ++ 0#19 ++ c) s = .next (s.raise .badIndex 0x1D#8))

/-- R60: RD changes no register except RESP, and a second RD of the same selector gives the same value. -/
def Obligations.ReadsHaveNoSideEffects : Prop :=
  ∀ c s, (Instr.rd c).wf = true →
    ∃ t, exec (.rd c) s = .next t ∧ t = { s with resp := t.resp } ∧ exec (.rd c) t = .next t

/-- R30: the layout of STATUS. -/
def Obligations.StatusLayout : Prop :=
  (∀ s, let v := statusWord s
    v.extractLsb' 0 2 = s.var ∧ v.extractLsb' 2 2 = 0#2 ∧ v.extractLsb' 4 4 = s.err ∧ v.extractLsb' 8 8 = s.errInfo ∧
    v.extractLsb' 16 3 = s.tvar ∧ v.extractLsb' 19 1 = 0#1 ∧ v.extractLsb' 20 4 = s.glen ∧ v.extractLsb' 24 8 = 0#8) ∧
  statusWord State.reset = 0x00000000#32

/-- R172. -/
def Obligations.ErrclrClearsThePendingFault : Prop :=
  decode 0xF0000000#32 = .ok .errclr ∧
  (∀ w : Word, w.extractLsb' 27 5 = 0x1E#5 → w ≠ 0xF0000000#32 → decode w = .error (.rsvdBits 0x1E#5) ∧
    ∀ s, s.err ≠ 0#4 → runWord w s = .next { s with resp := errorWord s.err s.errInfo }) ∧
  (∀ s, exec .errclr s = .next { s with err := 0#4, errInfo := 0#8, resp := 0x00000000#32 }) ∧
  ∀ s, s.err = 0#4 → s.errInfo = 0#8 → exec .errclr s = exec .nop s

/-- Derived from R173 and R20. The parameters stay (R31); that `prog` and `hpc` stay is the model's choice (log 3; R33
calls `hpc` "host state, not block state"). -/
def Obligations.SwresetResetsEveryRegister : Prop :=
  decode 0xF8000000#32 = .ok .swreset ∧
  (∀ w : Word, w.extractLsb' 27 5 = 0x1F#5 → w ≠ 0xF8000000#32 → decode w = .error (.rsvdBits 0x1F#5)) ∧
  ∀ s, exec .swreset s = .next
    { acc := 1#30, chk := 0#30, var := 0#2, tvar := 0#3, f := Vector.replicate 7 0#27, g := Vector.replicate 13 0#5,
      glen := 0#4, err := 0#4, errInfo := 0#8, resp := 0#32, config := s.config, prog := s.prog, hpc := s.hpc }

/-! ### Polymod engine -/

/-- R100 for every table of generators, generator i for bit 25 + i of the accumulator, and the default constants of
R101. -/
def Obligations.PolymodStepFormula : Prop :=
  (∀ (gen : Vector Acc 5) (acc : Acc) (v : Symbol), polymodStep gen acc v =
    ((acc &&& 0x1FFFFFF#30) <<< 5) ^^^ v.setWidth 30
      ^^^ (if acc.getLsbD 25 then gen[0] else 0#30) ^^^ (if acc.getLsbD 26 then gen[1] else 0#30)
      ^^^ (if acc.getLsbD 27 then gen[2] else 0#30) ^^^ (if acc.getLsbD 28 then gen[3] else 0#30)
      ^^^ (if acc.getLsbD 29 then gen[4] else 0#30)) ∧
  State.reset.config.gen = #v[0x3B6A57B2#30, 0x26508E6D#30, 0x1EA119FA#30, 0x3D4233DD#30, 0x2A1462B3#30]

/-- R104. -/
def Obligations.PmInitStartsAComputation : Prop :=
  decode 0x08000000#32 = .ok .pmInit ∧
  (∀ s, s.err = 0#4 → exec .pmInit s = .next { s with acc := 0x00000001#30, resp := 0x00000000#32 }) ∧
  ∀ s, s.err ≠ 0#4 → exec .pmInit s = .next { s with resp := errorWord s.err s.errInfo }

/-- R105, with its corner cases. -/
def Obligations.PmStepFeedsOneSymbol : Prop :=
  (∀ w : Word, w &&& 0xFFFFFFE0#32 = 0x10000000#32 → decode w = .ok (.pmStep (w.extractLsb' 0 5))) ∧
  (∀ v s, s.err = 0#4 →
    exec (.pmStep v) s = .next { s with acc := polymodStep s.config.gen s.acc v, resp := 0x00000000#32 }) ∧
  (∀ v s, s.err ≠ 0#4 → exec (.pmStep v) s = .next { s with resp := errorWord s.err s.errInfo }) ∧
  polymodStep defaultConfig.gen 0#30 0#5 = 0#30 ∧
  polymodStep defaultConfig.gen 1#30 0#5 = 0x00000020#30 ∧ polymodStep defaultConfig.gen 1#30 31#5 = 0x0000003F#30 ∧
  polymodStep defaultConfig.gen 0x3FFFFFFF#30 0#5 = 0x2B326EAB#30 ∧
  polymodStep defaultConfig.gen 0x3FFFFFFF#30 31#5 = 0x2B326EB4#30 ∧
  ∀ (gen : Vector Acc 5) (i : Fin 5), polymodStep gen (BitVec.ofNat 30 (2 ^ (25 + i.val))) 0#5 = gen[i]

/-- R106: the byte divided by 32 is fed, whatever the byte. -/
def Obligations.PmHrphFeedsTheHighPart : Prop :=
  (∀ w : Word, w &&& 0xFFFFFF00#32 = 0x18000000#32 → decode w = .ok (.pmHrph (w.extractLsb' 0 8))) ∧
  (∀ (c : Byte) s, s.err = 0#4 → exec (.pmHrph c) s = .next { s with
    acc := polymodStep s.config.gen s.acc (BitVec.ofNat 5 (c.toNat / 32)), resp := 0x00000000#32 }) ∧
  (∀ c s, s.err ≠ 0#4 → exec (.pmHrph c) s = .next { s with resp := errorWord s.err s.errInfo }) ∧
  polymodStep defaultConfig.gen 1#30 (tagHigh 0x61#8) = 0x00000023#30 ∧
  polymodStep defaultConfig.gen 1#30 (tagHigh 0xFF#8) = 0x00000027#30

/-- R107: the byte modulo 32 is fed, whatever the byte. -/
def Obligations.PmHrplFeedsTheLowPart : Prop :=
  (∀ w : Word, w &&& 0xFFFFFF00#32 = 0x20000000#32 → decode w = .ok (.pmHrpl (w.extractLsb' 0 8))) ∧
  (∀ (c : Byte) s, s.err = 0#4 → exec (.pmHrpl c) s = .next { s with
    acc := polymodStep s.config.gen s.acc (BitVec.ofNat 5 (c.toNat % 32)), resp := 0x00000000#32 }) ∧
  (∀ c s, s.err ≠ 0#4 → exec (.pmHrpl c) s = .next { s with resp := errorWord s.err s.errInfo }) ∧
  polymodStep defaultConfig.gen 1#30 (tagLow 0x61#8) = 0x00000021#30

/-- R108: PM_PAD6, and that it equals six `pm.step 0` in every state. -/
def Obligations.PmPad6FeedsSixZeros : Prop :=
  decode 0x28000000#32 = .ok .pmPad6 ∧
  (∀ s, s.err = 0#4 → exec .pmPad6 s = .next { s with
    acc := (fun a => polymodStep s.config.gen a 0#5)^[6] s.acc, resp := 0x00000000#32 }) ∧
  (∀ s, s.err ≠ 0#4 → exec .pmPad6 s = .next { s with resp := errorWord s.err s.errInfo }) ∧
  (∀ s, exec .pmPad6 s = execAll (List.replicate 6 (.pmStep 0#5)) s) ∧
  (fun a => polymodStep defaultConfig.gen a 0#5)^[6] 0x00008C01#30 = 0x15CCFE9E#30

/-- R109. -/
def Obligations.PmCsumLatchesTheChecksum : Prop :=
  (∀ w : Word, w &&& 0xFFFFFFFE#32 = 0x30000000#32 →
    decode w = .ok (.pmCsum (if w.getLsbD 0 then .modern else .original))) ∧
  (∀ s, s.err = 0#4 → exec (.pmCsum .original) s
    = .next { s with chk := s.acc ^^^ s.config.original, resp := 0x00000000#32 }) ∧
  (∀ s, s.err = 0#4 → exec (.pmCsum .modern) s
    = .next { s with chk := s.acc ^^^ s.config.modern, resp := 0x00000000#32 }) ∧
  (∀ t s, s.err ≠ 0#4 → exec (.pmCsum t) s = .next { s with resp := errorWord s.err s.errInfo }) ∧
  State.reset.config.original = 0x00000001#30 ∧ State.reset.config.modern = 0x2BC830A3#30 ∧
  checksumSymbols (0x15CCFE9E#30 ^^^ 0x2BC830A3#30) = [31#5, 0#5, 9#5, 19#5, 17#5, 29#5] ∧
  checksumSymbols (0x15CCFE9E#30 ^^^ 0x00000001#30) = [10#5, 28#5, 25#5, 31#5, 20#5, 31#5]

/-- R110: one of three results, MODERN tried first (in a legal configuration the targets differ, so the order shows
nothing: R113), and a mismatch is no fault (R209). -/
def Obligations.PmVerifyClassifiesTheAccumulator : Prop :=
  decode 0x38000000#32 = .ok .pmVerify ∧
  (∀ s : State, s.err = 0#4 → s.acc = s.config.modern →
    exec .pmVerify s = .next { s with var := 2#2, resp := 0x00000000#32 }) ∧
  (∀ s : State, s.err = 0#4 → s.acc ≠ s.config.modern → s.acc = s.config.original →
    exec .pmVerify s = .next { s with var := 1#2, resp := 0x00000000#32 }) ∧
  (∀ s : State, s.err = 0#4 → s.acc ≠ s.config.modern → s.acc ≠ s.config.original →
    exec .pmVerify s = .next { s with var := 0#2, resp := 0x00000000#32 }) ∧
  (∀ s, s.err ≠ 0#4 → exec .pmVerify s = .next { s with resp := errorWord s.err s.errInfo }) ∧
  (match execAll (pmCheck [0x61#8] [31#5, 0#5, 9#5, 19#5, 17#5, 29#5]) State.reset with
    | .next t => some t.var | _ => none) = some 2#2

/-- R113: no input verifies against both constants, for any targets that differ. -/
def Obligations.VariantsAreExclusive : Prop :=
  (∀ c : Config, c.original ≠ c.modern → ∀ tag data,
    ¬ (verifyChecksum c tag data .original = true ∧ verifyChecksum c tag data .modern = true)) ∧
  State.reset.config.original ≠ State.reset.config.modern

/-- R111: the commands of `pm.create t, "tag", payload` leave CHK = createChecksum(tag, payload, P_TARGET[t]), and
change only ACC, CHK and RESP. -/
def Obligations.CreateSequenceComputesTheChecksum : Prop :=
  ∀ (t : Target) (tag : List Byte) (payload : List Symbol) (s : State), s.err = 0#4 →
    execAll (pmCreate t tag payload) s = .next { s with
      acc := polymod s.config (expandTag tag ++ payload ++ List.replicate 6 0#5),
      chk := createChecksum s.config tag payload t, resp := 0x00000000#32 }

/-- R112: the commands of `pm.check "tag", data` leave VAR = 2, 1 or 0 as the data verifies under MODERN, ORIGINAL or
neither, and change only ACC, VAR and RESP. The targets differ, as they do in every legal configuration (R102, R113). -/
def Obligations.CheckSequenceClassifies : Prop :=
  ∀ (tag : List Byte) (data : List Symbol) (s : State), s.err = 0#4 → s.config.original ≠ s.config.modern →
    ∃ v, execAll (pmCheck tag data) s = .next { s with
        acc := polymod s.config (expandTag tag ++ data), var := v, resp := 0x00000000#32 } ∧
      (v = 2#2 ↔ verifyChecksum s.config tag data .modern = true) ∧
      (v = 1#2 ↔ verifyChecksum s.config tag data .original = true) ∧
      (v = 0#2 ↔ verifyChecksum s.config tag data .modern = false ∧ verifyChecksum s.config tag data .original = false)

/-- Derived from R111, R112 and vector L1-10: what `pm.create` makes, `pm.check` accepts under the same target, for
every tag and payload, and whatever the generators. -/
def Obligations.CreatedChecksumVerifies : Prop :=
  ∀ (t : Target) (tag : List Byte) (payload : List Symbol) (s : State), s.err = 0#4 →
    s.config.original ≠ s.config.modern →
    ∃ u v, execAll (pmCreate t tag payload) s = .next u ∧
      execAll (pmCheck tag (payload ++ checksumSymbols u.chk)) u = .next v ∧
      v.var = (match t with | .original => 1#2 | .modern => 2#2)

/-- Derived from R100, R101 and vector L1-8, for the default generators: replacing one symbol of data that verifies
under a target by another value never verifies under that target again, at any length. -/
def Obligations.OneAlteredSymbolIsDetected : Prop :=
  ∀ (tag : List Byte) (before after : List Symbol) (v v' : Symbol) (t : Target), v ≠ v' →
    verifyChecksum defaultConfig tag (before ++ v :: after) t = true →
    verifyChecksum defaultConfig tag (before ++ v' :: after) t = false

/-- Derived from R103, which the spec marks as general knowledge (log 11): after the steps with v1..vn from 1, the six
groups of ACC are the coefficients of the remainder modulo g(x) over GF(32). -/
def Obligations.PolymodIsThePolynomialRemainder : Prop :=
  ∀ (vs : List Symbol) (k : Fin 6), chkGroup (polymod defaultConfig vs) k = (remainder vs)[k]

/-! ### Txref packer -/

/-- R132 and R133: the default layout table, row by row, and that it meets every constraint (with the targets
differing as R102 says). -/
def Obligations.DefaultLayoutIsLegal : Prop :=
  (defaultConfig.layout.toList.map fun r =>
      (r.n, r.slots.filterMap fun x => if x.width = 0 then none else some (x.off, x.width))) =
    [ (8, [(0, 5), (5, 1), (6, 21), (27, 13)]),
      (11, [(0, 5), (5, 1), (6, 21), (27, 13), (40, 13), (53, 2)]),
      (10, [(0, 5), (5, 1), (6, 26), (32, 18)]),
      (13, [(0, 5), (5, 1), (6, 26), (32, 18), (50, 15)]),
      (9, [(0, 5), (5, 1), (6, 24), (30, 15)]),
      (12, [(0, 5), (5, 1), (6, 24), (30, 15), (45, 15)]),
      (9, [(0, 5), (5, 1), (6, 24), (30, 15)]),
      (12, [(0, 5), (5, 1), (6, 24), (30, 15), (45, 15)]) ] ∧
  (∀ v : Fin 8, defaultConfig.layout[v].extv.width = 0 ∧ (defaultConfig.layout[v].rsv.width ≠ 0 → v = 1)) ∧
  defaultConfig.Legal ∧ State.reset.config = defaultConfig

/-- Derived from R132's grounding of row 0: in every legal configuration row 0 has HEIGHT at 6/21 and POS at 27/13. -/
def Obligations.LegacyMainStandardRowIsForced : Prop :=
  ∀ c : Config, c.Legal → c.layout[0].height = ⟨6, 21⟩ ∧ c.layout[0].pos = ⟨27, 13⟩

/-- R134: BITS, EXTRACT and DEPOSIT as formulas on naturals. -/
def Obligations.BitstreamHelpers : Prop :=
  (∀ (g : Vector Symbol 13) (n : Nat), n ≤ 13 →
    groupBits g n = ∑ i : Fin 13, if i.val < n then g[i].toNat * 2 ^ (5 * i.val) else 0) ∧
  (∀ row bits f, extractField row bits f = bits / 2 ^ (row.slot f).off % 2 ^ (row.slot f).width) ∧
  ∀ row (F : Vector FieldWord 7), depositFields row F =
    (F[0].toNat % 2 ^ row.magic.width) <<< row.magic.off ||| (F[1].toNat % 2 ^ row.flag.width) <<< row.flag.off
      ||| (F[2].toNat % 2 ^ row.extv.width) <<< row.extv.off ||| (F[3].toNat % 2 ^ row.height.width) <<< row.height.off
      ||| (F[4].toNat % 2 ^ row.pos.width) <<< row.pos.off ||| (F[5].toNat % 2 ^ row.txo.width) <<< row.txo.off

/-- R135. -/
def Obligations.TpSetvarSelectsTheVariant : Prop :=
  (∀ w : Word, w &&& 0xFFFFFFF8#32 = 0x80000000#32 → decode w = .ok (.tpSetvar (w.extractLsb' 0 3))) ∧
  (∀ v s, s.err = 0#4 → exec (.tpSetvar v) s = .next { s with tvar := v, resp := 0x00000000#32 }) ∧
  (∀ v s, s.err ≠ 0#4 → exec (.tpSetvar v) s = .next { s with resp := errorWord s.err s.errInfo }) ∧
  layoutRow defaultConfig 6#3 = layoutRow defaultConfig 4#3 ∧ layoutRow defaultConfig 7#3 = layoutRow defaultConfig 5#3

/-- R136 to R142: the seven field writes. -/
def Obligations.FieldWritesStoreTheImmediate : Prop :=
  WritesField .tpWrmagic 0x11#5 0 ∧ WritesField .tpWrflag 0x12#5 1 ∧ WritesField .tpWrextv 0x13#5 2 ∧
  WritesField .tpWrhgt 0x14#5 3 ∧ WritesField .tpWrpos 0x15#5 4 ∧ WritesField .tpWrtxo 0x16#5 5 ∧
  WritesField .tpWrrsv 0x17#5 6

/-- R143: every index 0..12 writes its group, and a word with index 13..15 faults BAD_INDEX. -/
def Obligations.TpWrgWritesOneGroup : Prop :=
  (∀ (i : BitVec 4) (v : Symbol), i.toNat ≤ 12 → decode (0x18#5 ++ 0#15 ++ i ++ 0#3 ++ v) = .ok (.tpWrg i v)) ∧
  (∀ (i : BitVec 4) (v : Symbol) s (h : i.toNat < 13), s.err = 0#4 →
    exec (.tpWrg i v) s = .next { s with g := s.g.set i.toNat v h, resp := 0x00000000#32 }) ∧
  (∀ (i : BitVec 4) (v : Symbol) s, i.toNat < 13 → s.err ≠ 0#4 →
    exec (.tpWrg i v) s = .next { s with resp := errorWord s.err s.errInfo }) ∧
  ∀ (i : BitVec 4) (v : Symbol), 13 ≤ i.toNat →
    decode (0x18#5 ++ 0#15 ++ i ++ 0#3 ++ v) = .error (.badIndex 0x18#5) ∧
    ∀ s, runWord (0x18#5 ++ 0#15 ++ i ++ 0#3 ++ v) s = .next (s.raise .badIndex 0x18#8)

/-- R144: every count 0..13 is set, and a word with count 14 or 15 faults BAD_INDEX. -/
def Obligations.TpSetlenSetsTheCount : Prop :=
  (∀ n : BitVec 4, n.toNat ≤ 13 → decode (0x19#5 ++ 0#23 ++ n) = .ok (.tpSetlen n)) ∧
  (∀ (n : BitVec 4) s, n.toNat ≤ 13 → s.err = 0#4 →
    exec (.tpSetlen n) s = .next { s with glen := n, resp := 0x00000000#32 }) ∧
  (∀ (n : BitVec 4) s, n.toNat ≤ 13 → s.err ≠ 0#4 →
    exec (.tpSetlen n) s = .next { s with resp := errorWord s.err s.errInfo }) ∧
  ∀ n : BitVec 4, 13 < n.toNat → decode (0x19#5 ++ 0#23 ++ n) = .error (.badIndex 0x19#5) ∧
    ∀ s, runWord (0x19#5 ++ 0#23 ++ n) s = .next (s.raise .badIndex 0x19#8)

/-- R145: TP_PACK packs when every field fits, and otherwise faults FIELD_RANGE on the lowest field that does not. -/
def Obligations.TpPackPacksOrFaults : Prop :=
  decode 0xD0000000#32 = .ok .tpPack ∧
  (∀ s : State, s.err = 0#4 → FieldsFit s.row s.f → exec .tpPack s = .next { s with
    g := Vector.ofFn fun i : Fin 13 =>
      if i.val < s.row.n then BitVec.ofNat 5 (depositFields s.row s.f / 2 ^ (5 * i.val)) else 0#5,
    glen := BitVec.ofNat 4 s.row.n, resp := 0x00000000#32 }) ∧
  (∀ (s : State) (f : FieldId), s.err = 0#4 → ¬ Fits s.row s.f f →
    (∀ j : FieldId, j.idx < f.idx → Fits s.row s.f j) → exec .tpPack s = .next { s with
      err := 4#4, errInfo := BitVec.ofNat 8 f.idx.val,
      resp := 0x80000004#32 ||| (BitVec.ofNat 32 f.idx.val <<< 8) }) ∧
  ∀ s, s.err ≠ 0#4 → exec .tpPack s = .next { s with resp := errorWord s.err s.errInfo }

/-- R146: TP_UNPACK unpacks when GLEN is the variant's group count, and otherwise faults LEN_MISMATCH. That a field has
the value of R134 needs a width of at most 27 bits, which R133 (g) gives every legal configuration. -/
def Obligations.TpUnpackUnpacksOrFaults : Prop :=
  decode 0xD8000000#32 = .ok .tpUnpack ∧
  (∀ s : State, s.err = 0#4 → s.glen.toNat = s.row.n →
    ∃ F, exec .tpUnpack s = .next { s with f := F, resp := 0x00000000#32 } ∧
      (s.config.Legal → ∀ f : FieldId, F[f.idx].toNat
        = groupBits s.g s.row.n / 2 ^ (s.row.slot f).off % 2 ^ (s.row.slot f).width)) ∧
  (∀ s : State, s.err = 0#4 → s.glen.toNat ≠ s.row.n → exec .tpUnpack s = .next { s with
    err := 5#4, errInfo := s.glen.setWidth 8, resp := 0x80000005#32 ||| (s.glen.setWidth 32 <<< 8) }) ∧
  ∀ s, s.err ≠ 0#4 → exec .tpUnpack s = .next { s with resp := errorWord s.err s.errInfo }

/-- R147. -/
def Obligations.TpClrClearsThePacker : Prop :=
  decode 0xE0000000#32 = .ok .tpClr ∧
  (∀ s, s.err = 0#4 → exec .tpClr s = .next { s with
    f := Vector.replicate 7 0#27, g := Vector.replicate 13 0#5, glen := 0#4, resp := 0x00000000#32 }) ∧
  ∀ s, s.err ≠ 0#4 → exec .tpClr s = .next { s with resp := errorWord s.err s.errInfo }

/-- R55 with the numbering of R54, for every legal layout row: after packing, bit k of a field is at position off + k
(bit (off+k) mod 5 of group (off+k)/5), and every position no field but RSV covers is 0. -/
def Obligations.PackPlacesEveryFieldBit : Prop :=
  ∀ (ext : Bool) (row : LayoutRow) (F : Vector FieldWord 7), row.Legal ext →
    (∀ (f : FieldId) (k : Nat), f ≠ .rsv → k < (row.slot f).width →
      ∀ (i : Fin 13) (b : Fin 5), 5 * i.val + b.val = (row.slot f).off + k →
        (packGroups row F)[i].getLsbD b.val = F[f.idx].getLsbD k) ∧
    ∀ (i : Fin 13) (b : Fin 5), (∀ f : FieldId, f ≠ .rsv → ¬ Covers row f (5 * i.val + b.val)) →
      (packGroups row F)[i].getLsbD b.val = false

/-- Derived from R55 and R134, for every legal layout row: bit k of an unpacked field is the bit at position off + k
of the groups, and its bits from the width on are 0. -/
def Obligations.UnpackReadsEveryFieldBit : Prop :=
  ∀ (ext : Bool) (row : LayoutRow) (g : Vector Symbol 13), row.Legal ext →
    ∀ (f : FieldId) (k : Nat),
      (k < (row.slot f).width → ∀ (i : Fin 13) (b : Fin 5), 5 * i.val + b.val = (row.slot f).off + k →
        (unpackFields row g)[f.idx].getLsbD k = g[i].getLsbD b.val) ∧
      ((row.slot f).width ≤ k → (unpackFields row g)[f.idx].getLsbD k = false)

/-- Derived from R133 and R148, for every legal layout row, not only the default ones: unpacking packed fields gives
the fields back. -/
def Obligations.UnpackInvertsPackInEveryLegalLayout : Prop :=
  ∀ (ext : Bool) (row : LayoutRow) (F : Vector FieldWord 7), row.Legal ext → FieldsFit row F →
    unpackFields row (packGroups row F) = F

/-- R148, for every legal configuration: TP_PACK then TP_UNPACK leaves F unchanged, whatever commands in between that
write neither TVAR, G nor GLEN (and leave no fault pending). TP_UNPACK then TP_PACK completes and leaves G[0..N-1]
unchanged when the RSV bits and the bits of no field are zero; under the default table, whose rows leave no bit beyond
the last field, when the RSV bits are zero. -/
def Obligations.PackUnpackRoundTrip : Prop :=
  (∀ s : State, s.config.Legal → s.err = 0#4 → FieldsFit s.row s.f →
    ∃ t, exec .tpPack s = .next t ∧ ∀ t' : State, t'.config = t.config → t'.tvar = t.tvar → t'.g = t.g →
      t'.glen = t.glen → t'.err = 0#4 → ∃ u, exec .tpUnpack t' = .next u ∧ u.f = s.f ∧ u.err = 0#4) ∧
  (∀ s : State, s.config.Legal → s.err = 0#4 → s.glen.toNat = s.row.n →
    (∀ (i : Fin 13) (b : Fin 5), i.val < s.row.n → (∀ f : FieldId, f ≠ .rsv → ¬ Covers s.row f (5 * i.val + b.val)) →
      s.g[i].getLsbD b.val = false) →
    ∃ t u, exec .tpUnpack s = .next t ∧ exec .tpPack t = .next u ∧ u.err = 0#4 ∧
      ∀ i : Fin 13, i.val < s.row.n → u.g[i] = s.g[i]) ∧
  (∀ s : State, s.config.layout = defaultLayout → s.err = 0#4 → s.glen.toNat = s.row.n →
    extractField s.row (groupBits s.g s.row.n) .rsv = 0 →
    ∃ t u, exec .tpUnpack s = .next t ∧ exec .tpPack t = .next u ∧ u.err = 0#4 ∧
      ∀ i : Fin 13, i.val < s.row.n → u.g[i] = s.g[i]) ∧
  ∀ v : Fin 8, (defaultLayout[v].slots.map Slot.width).sum = 5 * defaultLayout[v].n

/-- R149: TP_PACK accepts exactly the fields up to 2^w - 1 (RSV only 0), whatever the table, and under the default table
exactly the variant's maxima. -/
def Obligations.VariantMaxima : Prop :=
  ∀ s : State, s.err = 0#4 →
    ((∃ t, exec .tpPack s = .next t ∧ t.err = 0#4) ↔
      ∀ f : FieldId, s.f[f.idx].toNat ≤ if f = .rsv then 0 else 2 ^ (s.row.slot f).width - 1) ∧
    (s.config.layout = defaultLayout →
      ((∃ t, exec .tpPack s = .next t ∧ t.err = 0#4) ↔
        s.f[0].toNat ≤ 31 ∧ s.f[1].toNat ≤ 1 ∧ s.f[2].toNat = 0 ∧
        s.f[3].toNat ≤ [2097151, 2097151, 67108863, 67108863, 16777215, 16777215, 16777215, 16777215].getD s.tvar.toNat 0 ∧
        s.f[4].toNat ≤ [8191, 8191, 262143, 262143, 32767, 32767, 32767, 32767].getD s.tvar.toNat 0 ∧
        s.f[5].toNat ≤ [0, 8191, 0, 32767, 0, 32767, 0, 32767].getD s.tvar.toNat 0 ∧
        s.f[6].toNat = 0))

/-- Derived from R145 and R146: what TP_PACK makes does not depend on the old groups or count, and TP_UNPACK does not
depend on the groups from N on. -/
def Obligations.StaleGroupsNeverLeak : Prop :=
  (∀ (s : State) g glen, s.err = 0#4 → FieldsFit s.row s.f →
    exec .tpPack { s with g := g, glen := glen } = exec .tpPack s) ∧
  ∀ (s : State) (g : Vector Symbol 13), s.err = 0#4 → s.glen.toNat = s.row.n →
    (∀ i : Fin 13, i.val < s.row.n → g[i] = s.g[i]) →
    ∃ t u, exec .tpUnpack s = .next t ∧ exec .tpUnpack { s with g := g } = .next u ∧ u.f = t.f

/-! ### Whole-machine rules -/

/-- Derived from the "written by" lists of R21 to R28, R31, R34 and R173: which commands can change which register
(ERRINFO among them), that no command writes the parameters or the host's state, and that no step writes the
parameters. -/
def Obligations.OnlyTheListedCommandsWriteARegister : Prop :=
  (∀ i s t, exec i s = .next t →
    (t.acc ≠ s.acc → i matches .pmInit | .pmStep _ | .pmHrph _ | .pmHrpl _ | .pmPad6 | .swreset) ∧
    (t.chk ≠ s.chk → i matches .pmCsum _ | .swreset) ∧
    (t.var ≠ s.var → i matches .pmVerify | .swreset) ∧
    (t.tvar ≠ s.tvar → i matches .tpSetvar _ | .swreset) ∧
    (t.f[0] ≠ s.f[0] → i matches .tpWrmagic _ | .tpUnpack | .tpClr | .swreset) ∧
    (t.f[1] ≠ s.f[1] → i matches .tpWrflag _ | .tpUnpack | .tpClr | .swreset) ∧
    (t.f[2] ≠ s.f[2] → i matches .tpWrextv _ | .tpUnpack | .tpClr | .swreset) ∧
    (t.f[3] ≠ s.f[3] → i matches .tpWrhgt _ | .tpUnpack | .tpClr | .swreset) ∧
    (t.f[4] ≠ s.f[4] → i matches .tpWrpos _ | .tpUnpack | .tpClr | .swreset) ∧
    (t.f[5] ≠ s.f[5] → i matches .tpWrtxo _ | .tpUnpack | .tpClr | .swreset) ∧
    (t.f[6] ≠ s.f[6] → i matches .tpWrrsv _ | .tpUnpack | .tpClr | .swreset) ∧
    (t.g ≠ s.g → i matches .tpWrg _ _ | .tpPack | .tpClr | .swreset) ∧
    (t.glen ≠ s.glen → i matches .tpSetlen _ | .tpPack | .tpClr | .swreset) ∧
    (t.err ≠ s.err ∧ i.wf = true → i matches .tpPack | .tpUnpack | .errclr | .swreset) ∧
    (t.errInfo ≠ s.errInfo ∧ i.wf = true → i matches .tpPack | .tpUnpack | .errclr | .swreset) ∧
    t.config = s.config ∧ t.prog = s.prog ∧ t.hpc = s.hpc) ∧
  ∀ s t, step s = .next t → t.config = s.config
end

