-- ==== Sys2Proof/Laws/State.lean ====
section
/-! SUPPORT. One lemma per field per named update of State, so that no later proof unfolds a record update. -/

namespace Sys2Proof.Machine

/-! ### State.respond -/

@[simp] theorem State.respond_acc (s : State) (v : Word) : (s.respond v).acc = s.acc := rfl
@[simp] theorem State.respond_chk (s : State) (v : Word) : (s.respond v).chk = s.chk := rfl
@[simp] theorem State.respond_var (s : State) (v : Word) : (s.respond v).var = s.var := rfl
@[simp] theorem State.respond_tvar (s : State) (v : Word) : (s.respond v).tvar = s.tvar := rfl
@[simp] theorem State.respond_f (s : State) (v : Word) : (s.respond v).f = s.f := rfl
@[simp] theorem State.respond_g (s : State) (v : Word) : (s.respond v).g = s.g := rfl
@[simp] theorem State.respond_glen (s : State) (v : Word) : (s.respond v).glen = s.glen := rfl
@[simp] theorem State.respond_err (s : State) (v : Word) : (s.respond v).err = s.err := rfl
@[simp] theorem State.respond_errInfo (s : State) (v : Word) : (s.respond v).errInfo = s.errInfo := rfl
@[simp] theorem State.respond_resp (s : State) (v : Word) : (s.respond v).resp = v := rfl
@[simp] theorem State.respond_config (s : State) (v : Word) : (s.respond v).config = s.config := rfl
@[simp] theorem State.respond_prog (s : State) (v : Word) : (s.respond v).prog = s.prog := rfl
@[simp] theorem State.respond_hpc (s : State) (v : Word) : (s.respond v).hpc = s.hpc := rfl

/-! ### State.writeF -/

@[simp] theorem State.writeF_acc (s : State) (k : FieldId) (v : FieldWord) : (s.writeF k v).acc = s.acc := rfl
@[simp] theorem State.writeF_chk (s : State) (k : FieldId) (v : FieldWord) : (s.writeF k v).chk = s.chk := rfl
@[simp] theorem State.writeF_var (s : State) (k : FieldId) (v : FieldWord) : (s.writeF k v).var = s.var := rfl
@[simp] theorem State.writeF_tvar (s : State) (k : FieldId) (v : FieldWord) : (s.writeF k v).tvar = s.tvar := rfl
@[simp] theorem State.writeF_f (s : State) (k : FieldId) (v : FieldWord) : (s.writeF k v).f = s.f.set k.idx v := rfl
@[simp] theorem State.writeF_g (s : State) (k : FieldId) (v : FieldWord) : (s.writeF k v).g = s.g := rfl
@[simp] theorem State.writeF_glen (s : State) (k : FieldId) (v : FieldWord) : (s.writeF k v).glen = s.glen := rfl
@[simp] theorem State.writeF_err (s : State) (k : FieldId) (v : FieldWord) : (s.writeF k v).err = s.err := rfl
@[simp] theorem State.writeF_errInfo (s : State) (k : FieldId) (v : FieldWord) : (s.writeF k v).errInfo = s.errInfo := rfl
@[simp] theorem State.writeF_resp (s : State) (k : FieldId) (v : FieldWord) : (s.writeF k v).resp = s.resp := rfl
@[simp] theorem State.writeF_config (s : State) (k : FieldId) (v : FieldWord) : (s.writeF k v).config = s.config := rfl
@[simp] theorem State.writeF_prog (s : State) (k : FieldId) (v : FieldWord) : (s.writeF k v).prog = s.prog := rfl
@[simp] theorem State.writeF_hpc (s : State) (k : FieldId) (v : FieldWord) : (s.writeF k v).hpc = s.hpc := rfl

/-! ### State.writeG -/

@[simp] theorem State.writeG_acc (s : State) (i : Fin 13) (v : Symbol) : (s.writeG i v).acc = s.acc := rfl
@[simp] theorem State.writeG_chk (s : State) (i : Fin 13) (v : Symbol) : (s.writeG i v).chk = s.chk := rfl
@[simp] theorem State.writeG_var (s : State) (i : Fin 13) (v : Symbol) : (s.writeG i v).var = s.var := rfl
@[simp] theorem State.writeG_tvar (s : State) (i : Fin 13) (v : Symbol) : (s.writeG i v).tvar = s.tvar := rfl
@[simp] theorem State.writeG_f (s : State) (i : Fin 13) (v : Symbol) : (s.writeG i v).f = s.f := rfl
@[simp] theorem State.writeG_g (s : State) (i : Fin 13) (v : Symbol) : (s.writeG i v).g = s.g.set i v := rfl
@[simp] theorem State.writeG_glen (s : State) (i : Fin 13) (v : Symbol) : (s.writeG i v).glen = s.glen := rfl
@[simp] theorem State.writeG_err (s : State) (i : Fin 13) (v : Symbol) : (s.writeG i v).err = s.err := rfl
@[simp] theorem State.writeG_errInfo (s : State) (i : Fin 13) (v : Symbol) : (s.writeG i v).errInfo = s.errInfo := rfl
@[simp] theorem State.writeG_resp (s : State) (i : Fin 13) (v : Symbol) : (s.writeG i v).resp = s.resp := rfl
@[simp] theorem State.writeG_config (s : State) (i : Fin 13) (v : Symbol) : (s.writeG i v).config = s.config := rfl
@[simp] theorem State.writeG_prog (s : State) (i : Fin 13) (v : Symbol) : (s.writeG i v).prog = s.prog := rfl
@[simp] theorem State.writeG_hpc (s : State) (i : Fin 13) (v : Symbol) : (s.writeG i v).hpc = s.hpc := rfl

/-! ### State.feed -/

@[simp] theorem State.feed_acc (s : State) (v : Symbol) : (s.feed v).acc = polymodStep s.config.gen s.acc v := rfl
@[simp] theorem State.feed_chk (s : State) (v : Symbol) : (s.feed v).chk = s.chk := rfl
@[simp] theorem State.feed_var (s : State) (v : Symbol) : (s.feed v).var = s.var := rfl
@[simp] theorem State.feed_tvar (s : State) (v : Symbol) : (s.feed v).tvar = s.tvar := rfl
@[simp] theorem State.feed_f (s : State) (v : Symbol) : (s.feed v).f = s.f := rfl
@[simp] theorem State.feed_g (s : State) (v : Symbol) : (s.feed v).g = s.g := rfl
@[simp] theorem State.feed_glen (s : State) (v : Symbol) : (s.feed v).glen = s.glen := rfl
@[simp] theorem State.feed_err (s : State) (v : Symbol) : (s.feed v).err = s.err := rfl
@[simp] theorem State.feed_errInfo (s : State) (v : Symbol) : (s.feed v).errInfo = s.errInfo := rfl
@[simp] theorem State.feed_resp (s : State) (v : Symbol) : (s.feed v).resp = s.resp := rfl
@[simp] theorem State.feed_config (s : State) (v : Symbol) : (s.feed v).config = s.config := rfl
@[simp] theorem State.feed_prog (s : State) (v : Symbol) : (s.feed v).prog = s.prog := rfl
@[simp] theorem State.feed_hpc (s : State) (v : Symbol) : (s.feed v).hpc = s.hpc := rfl

/-! ### State.blocked -/

@[simp] theorem State.blocked_acc (s : State) : (s.blocked).acc = s.acc := rfl
@[simp] theorem State.blocked_chk (s : State) : (s.blocked).chk = s.chk := rfl
@[simp] theorem State.blocked_var (s : State) : (s.blocked).var = s.var := rfl
@[simp] theorem State.blocked_tvar (s : State) : (s.blocked).tvar = s.tvar := rfl
@[simp] theorem State.blocked_f (s : State) : (s.blocked).f = s.f := rfl
@[simp] theorem State.blocked_g (s : State) : (s.blocked).g = s.g := rfl
@[simp] theorem State.blocked_glen (s : State) : (s.blocked).glen = s.glen := rfl
@[simp] theorem State.blocked_err (s : State) : (s.blocked).err = s.err := rfl
@[simp] theorem State.blocked_errInfo (s : State) : (s.blocked).errInfo = s.errInfo := rfl
@[simp] theorem State.blocked_resp (s : State) : (s.blocked).resp = errorWord s.err s.errInfo := rfl
@[simp] theorem State.blocked_config (s : State) : (s.blocked).config = s.config := rfl
@[simp] theorem State.blocked_prog (s : State) : (s.blocked).prog = s.prog := rfl
@[simp] theorem State.blocked_hpc (s : State) : (s.blocked).hpc = s.hpc := rfl

/-! ### State.clearFault -/

@[simp] theorem State.clearFault_acc (s : State) : (s.clearFault).acc = s.acc := rfl
@[simp] theorem State.clearFault_chk (s : State) : (s.clearFault).chk = s.chk := rfl
@[simp] theorem State.clearFault_var (s : State) : (s.clearFault).var = s.var := rfl
@[simp] theorem State.clearFault_tvar (s : State) : (s.clearFault).tvar = s.tvar := rfl
@[simp] theorem State.clearFault_f (s : State) : (s.clearFault).f = s.f := rfl
@[simp] theorem State.clearFault_g (s : State) : (s.clearFault).g = s.g := rfl
@[simp] theorem State.clearFault_glen (s : State) : (s.clearFault).glen = s.glen := rfl
@[simp] theorem State.clearFault_err (s : State) : (s.clearFault).err = 0#4 := rfl
@[simp] theorem State.clearFault_errInfo (s : State) : (s.clearFault).errInfo = 0#8 := rfl
@[simp] theorem State.clearFault_resp (s : State) : (s.clearFault).resp = s.resp := rfl
@[simp] theorem State.clearFault_config (s : State) : (s.clearFault).config = s.config := rfl
@[simp] theorem State.clearFault_prog (s : State) : (s.clearFault).prog = s.prog := rfl
@[simp] theorem State.clearFault_hpc (s : State) : (s.clearFault).hpc = s.hpc := rfl

/-! ### State.resetRegisters -/

@[simp] theorem State.resetRegisters_acc (s : State) : (s.resetRegisters).acc = State.reset.acc := rfl
@[simp] theorem State.resetRegisters_chk (s : State) : (s.resetRegisters).chk = State.reset.chk := rfl
@[simp] theorem State.resetRegisters_var (s : State) : (s.resetRegisters).var = State.reset.var := rfl
@[simp] theorem State.resetRegisters_tvar (s : State) : (s.resetRegisters).tvar = State.reset.tvar := rfl
@[simp] theorem State.resetRegisters_f (s : State) : (s.resetRegisters).f = State.reset.f := rfl
@[simp] theorem State.resetRegisters_g (s : State) : (s.resetRegisters).g = State.reset.g := rfl
@[simp] theorem State.resetRegisters_glen (s : State) : (s.resetRegisters).glen = State.reset.glen := rfl
@[simp] theorem State.resetRegisters_err (s : State) : (s.resetRegisters).err = State.reset.err := rfl
@[simp] theorem State.resetRegisters_errInfo (s : State) : (s.resetRegisters).errInfo = State.reset.errInfo := rfl
@[simp] theorem State.resetRegisters_resp (s : State) : (s.resetRegisters).resp = State.reset.resp := rfl
@[simp] theorem State.resetRegisters_config (s : State) : (s.resetRegisters).config = s.config := rfl
@[simp] theorem State.resetRegisters_prog (s : State) : (s.resetRegisters).prog = s.prog := rfl
@[simp] theorem State.resetRegisters_hpc (s : State) : (s.resetRegisters).hpc = s.hpc := rfl

/-! ### State.advance -/

@[simp] theorem State.advance_acc (s : State) : (s.advance).acc = s.acc := rfl
@[simp] theorem State.advance_chk (s : State) : (s.advance).chk = s.chk := rfl
@[simp] theorem State.advance_var (s : State) : (s.advance).var = s.var := rfl
@[simp] theorem State.advance_tvar (s : State) : (s.advance).tvar = s.tvar := rfl
@[simp] theorem State.advance_f (s : State) : (s.advance).f = s.f := rfl
@[simp] theorem State.advance_g (s : State) : (s.advance).g = s.g := rfl
@[simp] theorem State.advance_glen (s : State) : (s.advance).glen = s.glen := rfl
@[simp] theorem State.advance_err (s : State) : (s.advance).err = s.err := rfl
@[simp] theorem State.advance_errInfo (s : State) : (s.advance).errInfo = s.errInfo := rfl
@[simp] theorem State.advance_resp (s : State) : (s.advance).resp = s.resp := rfl
@[simp] theorem State.advance_config (s : State) : (s.advance).config = s.config := rfl
@[simp] theorem State.advance_prog (s : State) : (s.advance).prog = s.prog := rfl
@[simp] theorem State.advance_hpc (s : State) : (s.advance).hpc = s.hpc + 1 := rfl

/-! ### State.raise: the fields it never writes, and the two records it can leave -/

@[simp] theorem State.raise_acc (s : State) (c : FaultCode) (n : BitVec 8) : (s.raise c n).acc = s.acc := by
  unfold State.raise; split <;> rfl
@[simp] theorem State.raise_chk (s : State) (c : FaultCode) (n : BitVec 8) : (s.raise c n).chk = s.chk := by
  unfold State.raise; split <;> rfl
@[simp] theorem State.raise_var (s : State) (c : FaultCode) (n : BitVec 8) : (s.raise c n).var = s.var := by
  unfold State.raise; split <;> rfl
@[simp] theorem State.raise_tvar (s : State) (c : FaultCode) (n : BitVec 8) : (s.raise c n).tvar = s.tvar := by
  unfold State.raise; split <;> rfl
@[simp] theorem State.raise_f (s : State) (c : FaultCode) (n : BitVec 8) : (s.raise c n).f = s.f := by
  unfold State.raise; split <;> rfl
@[simp] theorem State.raise_g (s : State) (c : FaultCode) (n : BitVec 8) : (s.raise c n).g = s.g := by
  unfold State.raise; split <;> rfl
@[simp] theorem State.raise_glen (s : State) (c : FaultCode) (n : BitVec 8) : (s.raise c n).glen = s.glen := by
  unfold State.raise; split <;> rfl
@[simp] theorem State.raise_config (s : State) (c : FaultCode) (n : BitVec 8) : (s.raise c n).config = s.config := by
  unfold State.raise; split <;> rfl
@[simp] theorem State.raise_prog (s : State) (c : FaultCode) (n : BitVec 8) : (s.raise c n).prog = s.prog := by
  unfold State.raise; split <;> rfl
@[simp] theorem State.raise_hpc (s : State) (c : FaultCode) (n : BitVec 8) : (s.raise c n).hpc = s.hpc := by
  unfold State.raise; split <;> rfl

theorem State.raise_of_clear (s : State) (c : FaultCode) (n : BitVec 8) (h : s.err = 0#4) :
    s.raise c n = { s with err := c.number, errInfo := n, resp := errorWord c.number n } := if_pos h

theorem State.raise_of_pending (s : State) (c : FaultCode) (n : BitVec 8) (h : s.err ≠ 0#4) :
    s.raise c n = { s with resp := errorWord s.err s.errInfo } := if_neg h

/-! ### State.placeCommand: only the host's program changes -/

@[simp] theorem State.placeCommand_acc (s : State) (w : Word) : (s.placeCommand w).acc = s.acc := rfl
@[simp] theorem State.placeCommand_chk (s : State) (w : Word) : (s.placeCommand w).chk = s.chk := rfl
@[simp] theorem State.placeCommand_var (s : State) (w : Word) : (s.placeCommand w).var = s.var := rfl
@[simp] theorem State.placeCommand_tvar (s : State) (w : Word) : (s.placeCommand w).tvar = s.tvar := rfl
@[simp] theorem State.placeCommand_f (s : State) (w : Word) : (s.placeCommand w).f = s.f := rfl
@[simp] theorem State.placeCommand_g (s : State) (w : Word) : (s.placeCommand w).g = s.g := rfl
@[simp] theorem State.placeCommand_glen (s : State) (w : Word) : (s.placeCommand w).glen = s.glen := rfl
@[simp] theorem State.placeCommand_err (s : State) (w : Word) : (s.placeCommand w).err = s.err := rfl
@[simp] theorem State.placeCommand_errInfo (s : State) (w : Word) : (s.placeCommand w).errInfo = s.errInfo := rfl
@[simp] theorem State.placeCommand_resp (s : State) (w : Word) : (s.placeCommand w).resp = s.resp := rfl
@[simp] theorem State.placeCommand_config (s : State) (w : Word) : (s.placeCommand w).config = s.config := rfl
@[simp] theorem State.placeCommand_hpc (s : State) (w : Word) : (s.placeCommand w).hpc = s.hpc := rfl

/-- The placed word is what the host hands over next. -/
@[simp] theorem State.placeCommand_pending (s : State) (w : Word) :
    (s.placeCommand w).pending = some (.command w) := by
  simp only [State.pending, State.placeCommand]
  have h : (s.prog.take s.hpc ++ List.replicate (s.hpc - s.prog.length) (PortEvent.command 0#32)).length = s.hpc := by
    simp; omega
  rw [List.getElem?_append_right (by omega), h]
  simp

end Sys2Proof.Machine
end

