-- ==== Sys2Proof/Laws/Ops.lean ====
section
/-! SUPPORT. What the shared operations do: blocking, completing, taking a fault, the register files and the readout. -/

namespace Sys2Proof.Machine

/-! ### Blocking and completing -/

theorem unlessBlocked_of_clear {s : State} (h : s.err = 0#4) (k : Host.Outcome State Fault Refusal) :
    unlessBlocked s k = k := if_pos h

theorem unlessBlocked_of_pending {s : State} (h : s.err ≠ 0#4) (k : Host.Outcome State Fault Refusal) :
    unlessBlocked s k = .next s.blocked := if_neg h

/-- Everything a guarded command can answer. -/
theorem unlessBlocked_next {s t : State} {k : Host.Outcome State Fault Refusal} (h : unlessBlocked s k = .next t) :
    (s.err = 0#4 ∧ k = .next t) ∨ (s.err ≠ 0#4 ∧ t = s.blocked) := by
  by_cases e : s.err = 0#4
  · exact .inl ⟨e, by rwa [unlessBlocked_of_clear e] at h⟩
  · rw [unlessBlocked_of_pending e] at h
    exact .inr ⟨e, by injection h with h; exact h.symm⟩

/-- A guarded completing command answers one of two states. -/
theorem unlessBlocked_complete_next {s u t : State} (h : unlessBlocked s (complete u) = .next t) :
    (s.err = 0#4 ∧ t = u.respond 0#32) ∨ (s.err ≠ 0#4 ∧ t = s.blocked) := by
  rcases unlessBlocked_next h with ⟨e, h⟩ | h
  · exact .inl ⟨e, by injection h with h; exact h.symm⟩
  · exact .inr h

/-! ### Faults -/

theorem FaultCode.number_ne_zero (c : FaultCode) : c.number ≠ 0#4 := by cases c <;> decide

/-- After a fault is taken, ERR is not 0 and RESP is the error word of the record as it stands. -/
theorem State.raise_err_ne_zero (s : State) (c : FaultCode) (n : BitVec 8) : (s.raise c n).err ≠ 0#4 := by
  by_cases h : s.err = 0#4
  · simpa [State.raise_of_clear s c n h] using c.number_ne_zero
  · simpa [State.raise_of_pending s c n h] using h

theorem State.raise_resp (s : State) (c : FaultCode) (n : BitVec 8) :
    (s.raise c n).resp = errorWord (s.raise c n).err (s.raise c n).errInfo := by
  unfold State.raise; split <;> rfl

/-- Bit 31 marks an error word. -/
theorem errorWord_bit31 (e : BitVec 4) (n : BitVec 8) : (errorWord e n).getLsbD 31 = true := by
  simp [errorWord]

/-! ### Register files -/

theorem fieldIdx_injective : ∀ a b : FieldId, a.idx = b.idx → a = b := by
  intro a b; cases a <;> cases b <;> decide

@[simp] theorem State.readF_writeF_same (s : State) (k : FieldId) (v : FieldWord) : (s.writeF k v).readF k = v := by
  simp [State.readF, State.writeF]

theorem State.readF_writeF_other (s : State) {k j : FieldId} (v : FieldWord) (h : j ≠ k) :
    (s.writeF k v).readF j = s.readF j := by
  have : k.idx.val ≠ j.idx.val := fun e => h (fieldIdx_injective _ _ (Fin.ext e.symm))
  simp [State.readF, State.writeF, this]

@[simp] theorem State.readG_writeG_same (s : State) (i : Fin 13) (v : Symbol) : (s.writeG i v).readG i = v := by
  simp [State.readG, State.writeG]

theorem State.readG_writeG_other (s : State) {i j : Fin 13} (v : Symbol) (h : j ≠ i) :
    (s.writeG i v).readG j = s.readG j := by
  have : i.val ≠ j.val := fun e => h (Fin.ext e.symm)
  simp [State.readG, State.writeG, this]

/-! ### The selector map -/

/-- Every readable register or view has a selector byte, and it is mapped to it. -/
theorem selectorOf_selectorByte (r : Selector) : selectorOf (selectorByte r) = some r := by
  cases r with
  | acc => decide
  | chk => decide
  | status => decide
  | chkGroup i => revert i; decide
  | field f => cases f <;> decide
  | group i => revert i; decide

theorem groupIndexLegal_iff (i : BitVec 4) : groupIndexLegal i = true ↔ i.toNat < 13 := by
  simp [groupIndexLegal]; omega

theorem groupCountLegal_iff (n : BitVec 4) : groupCountLegal n = true ↔ n.toNat ≤ 13 := by
  simp [groupCountLegal]

end Sys2Proof.Machine
end

