-- ==== Sys2Proof/Laws/Bits.lean ====
section
/-! SUPPORT. The bits of the packer's bitstream: where `groupBits`, `depositFields` and `packGroups` put each bit, and
where `extractField` takes it from (20_memory.md R54, R55; 41_txref_packer.md R134). -/

namespace Sys2Proof.Machine

/-- Bit k of a width mask is set exactly below the width. -/
theorem widthMask_testBit (w k : Nat) : (widthMask w).testBit k = decide (k < w) := by
  simp [widthMask, Nat.shiftLeft_eq, Nat.testBit_two_pow_sub_one]

theorem groupBits_succ (g : Vector Symbol 13) (n : Nat) :
    groupBits g (n + 1) = groupBits g n + (g[n]?.getD 0#5).toNat <<< (5 * n) := by
  simp [groupBits, List.range_succ]

theorem groupBits_lt (g : Vector Symbol 13) (n : Nat) : groupBits g n < 2 ^ (5 * n) := by
  induction n with
  | zero => simp [groupBits]
  | succ n ih =>
    rw [groupBits_succ, Nat.shiftLeft_eq, show 5 * (n + 1) = 5 * n + 5 by ring, Nat.pow_add]
    have h := (g[n]?.getD 0#5).isLt
    have : (g[n]?.getD 0#5).toNat * 2 ^ (5 * n) ≤ 31 * 2 ^ (5 * n) := Nat.mul_le_mul_right _ (by omega)
    omega

/-- Position p = 5·i + b of the bitstream is bit b of group i. -/
theorem groupBits_testBit (g : Vector Symbol 13) (n p : Nat) :
    (groupBits g n).testBit p = (decide (p < 5 * n) && (g[p / 5]?.getD 0#5).getLsbD (p % 5)) := by
  induction n with
  | zero => simp [groupBits]
  | succ n ih =>
    rw [groupBits_succ, Nat.shiftLeft_eq, Nat.add_comm, Nat.mul_comm, Nat.testBit_two_pow_mul_add _ (groupBits_lt g n)]
    by_cases h : p < 5 * n
    · simp [h, ih, show p < 5 * (n + 1) by omega]
    · rw [if_neg h, BitVec.testBit_toNat]
      by_cases h' : p < 5 * (n + 1)
      · rw [show p / 5 = n by omega, show p - 5 * n = p % 5 by omega]; simp [h']
      · simp only [h', decide_false, Bool.false_and]
        exact BitVec.getLsbD_of_ge _ _ (by omega)

/-- Bit k of an extracted field is bitstream bit off + k, within the field's width. -/
theorem extractField_testBit (row : LayoutRow) (bits : Nat) (f : FieldId) (k : Nat) :
    (extractField row bits f).testBit k = (decide (k < (row.slot f).width) && bits.testBit ((row.slot f).off + k)) := by
  simp [extractField, widthMask_testBit, Bool.and_comm]

theorem extractField_lt (row : LayoutRow) (bits : Nat) (f : FieldId) :
    extractField row bits f < 2 ^ (row.slot f).width := by
  have h : extractField row bits f ≤ widthMask (row.slot f).width := Nat.and_le_right
  have := Nat.two_pow_pos (row.slot f).width
  simp only [widthMask, Nat.shiftLeft_eq, Nat.one_mul] at h
  omega

/-- What one field contributes to position p of the bitstream. -/
def depositedBit (row : LayoutRow) (F : Vector FieldWord 7) (f : FieldId) (p : Nat) : Bool :=
  decide ((row.slot f).off ≤ p) && (decide (p - (row.slot f).off < (row.slot f).width) && F[f.idx].getLsbD (p - (row.slot f).off))

/-- Position p of the deposited bitstream is the OR of what the fields other than RSV contribute to it. -/
theorem depositFields_testBit (row : LayoutRow) (F : Vector FieldWord 7) (p : Nat) :
    (depositFields row F).testBit p
      = (FieldId.all.filter (· ≠ .rsv)).any fun f => depositedBit row F f p := by
  have key : ∀ f : FieldId,
      ((F[f.idx].toNat &&& widthMask (row.slot f).width) <<< (row.slot f).off).testBit p = depositedBit row F f p := by
    intro f
    simp only [Nat.testBit_shiftLeft, Nat.testBit_and, widthMask_testBit, BitVec.testBit_toNat, depositedBit, ge_iff_le]
    cases decide ((row.slot f).off ≤ p) <;> simp [Bool.and_comm]
  have fold : ∀ (fs : List FieldId) (a : Nat),
      (fs.foldl (fun p f => p ||| ((F[f.idx].toNat &&& widthMask (row.slot f).width) <<< (row.slot f).off)) a).testBit p
        = (a.testBit p || fs.any fun f => depositedBit row F f p) := by
    intro fs
    induction fs with
    | nil => simp
    | cons f fs ih =>
      intro a
      rw [List.foldl_cons, ih, Nat.testBit_or, key, List.any_cons, Bool.or_assoc]
  simpa [depositFields] using fold (FieldId.all.filter (· ≠ .rsv)) 0

/-- Group i of the packed groups holds positions 5·i to 5·i + 4, and groups from N on are zero. -/
theorem packGroups_getLsbD (row : LayoutRow) (F : Vector FieldWord 7) (i : Fin 13) (b : Nat) (hb : b < 5) :
    (packGroups row F)[i].getLsbD b = (decide (i.val < row.n) && (depositFields row F).testBit (5 * i.val + b)) := by
  simp only [packGroups, Fin.getElem_fin, Vector.getElem_ofFn]
  split
  · simp only [BitVec.getLsbD_ofNat, decide_true, Bool.true_and, Nat.testBit_shiftRight, *]
  · simp [*]

/-- Every field TP_UNPACK writes is the extracted integer. -/
theorem unpackFields_get (row : LayoutRow) (g : Vector Symbol 13) (f : FieldId) :
    (unpackFields row g)[f.idx] = BitVec.ofNat 27 (extractField row (groupBits g row.n) f) := by
  cases f <;> rfl

end Sys2Proof.Machine
end

