-- ==== Sys2Proof/Laws/Decode.lean ====
section
/-! SUPPORT. What the decoder can answer, and the fields of an encoded word. -/

namespace Sys2Proof

/-- Everything a decoded command says about its word. -/
theorem decode_ok {w : Word} {i : Instr} (h : decode w = .ok i) :
    ∃ r, rowOf (opField w) = some r ∧ w &&& r.mask = r.fixed ∧ r.build w = i ∧ i.wf = true := by
  unfold decode at h
  split at h
  · cases h
  · next r hr =>
    split at h
    · cases h
    · next hm =>
      split at h
      · next hw =>
        injection h with h
        exact ⟨r, hr, by simpa using hm, h, h ▸ hw⟩
      · cases h

/-- A word of a row, with legal reserved bits and a legal index, decodes to the row's command. -/
theorem decode_of_row {w : Word} {r : OpRow} (hr : rowOf (opField w) = some r) (hm : w &&& r.mask = r.fixed)
    (hw : (r.build w).wf = true) : decode w = .ok (r.build w) := by
  simp [decode, hr, hm, hw]

/-- The opcode of a word written as opcode and 27 operand bits. -/
theorem opField_append (op : BitVec 5) (a : BitVec 27) : opField (op ++ a) = op :=
  (BitVec.extractLsb'_append_eq_of_le (xhi := op) (xlo := a) (start := 27) (len := 5) (by omega)).trans (by simp)

theorem immField_append (op : BitVec 5) (a : BitVec 27) : immField (op ++ a) = a :=
  (BitVec.extractLsb'_append_eq_of_add_le (xhi := op) (xlo := a) (start := 0) (len := 27) (by omega)).trans (by simp)

/-- A word is its opcode followed by its 27 operand bits. -/
theorem opField_append_immField (w : Word) : opField w ++ immField w = w := by
  apply BitVec.eq_of_getLsbD_eq
  intro k hk
  simp only [opField, immField, BitVec.getLsbD_append, BitVec.getLsbD_extractLsb']
  split
  · simp_all
  · simp [show 27 + (k - 27) = k by omega, show k - 27 < 5 by omega]

/-- The mask of the I27 rows keeps the opcode and drops the immediate. -/
theorem append_and_opcodeMask (op : BitVec 5) (a : BitVec 27) : (op ++ a) &&& 0xF8000000#32 = op ++ 0#27 := by
  have h : (0xF8000000#32 : Word) = 0x1F#5 ++ 0#27 := by decide
  have e : op &&& 0x1F#5 = op := by revert op; decide
  rw [h]
  exact BitVec.and_append.trans (by rw [e, BitVec.and_zero])

/-- A mask that holds the five opcode bits fixes the opcode. -/
theorem opField_of_mask {w mask fixed : Word} (h : w &&& mask = fixed) (hm : opField mask = 0x1F#5) :
    opField w = opField fixed := by
  subst h
  have e : ∀ a : BitVec 5, a &&& 0x1F#5 = a := by decide
  simp only [opField] at hm ⊢
  rw [BitVec.extractLsb'_and, hm, e]

end Sys2Proof
end

