-- ==== Sys2Proof/Laws/Exec.lean ====
section
/-! SUPPORT. Inversion: what a meaning with branches of its own, a command word, an event and a step can answer. The
other meanings are one `unlessBlocked s (complete _)`, which `unlessBlocked_complete_next` inverts. -/

namespace Sys2Proof.Machine

theorem execTpWrg_next {i : BitVec 4} {v : Symbol} {s t : State} (h : execTpWrg i v s = .next t) :
    (∃ h : i.toNat < 13, s.err = 0#4 ∧ t = (s.writeG ⟨i.toNat, h⟩ v).respond 0#32)
      ∨ (i.toNat < 13 ∧ s.err ≠ 0#4 ∧ t = s.blocked) ∨ (13 ≤ i.toNat ∧ t = s.raise .badIndex 0x18#8) := by
  unfold execTpWrg at h
  split at h
  · next hi =>
    rcases unlessBlocked_complete_next h with ⟨e, rfl⟩ | ⟨e, rfl⟩
    · exact .inl ⟨hi, e, rfl⟩
    · exact .inr (.inl ⟨hi, e, rfl⟩)
  · injection h with h
    exact .inr (.inr ⟨by omega, h.symm⟩)

theorem execTpSetlen_next {n : BitVec 4} {s t : State} (h : execTpSetlen n s = .next t) :
    (n.toNat ≤ 13 ∧ s.err = 0#4 ∧ t = { s with glen := n, resp := 0#32 })
      ∨ (n.toNat ≤ 13 ∧ s.err ≠ 0#4 ∧ t = s.blocked) ∨ (13 < n.toNat ∧ t = s.raise .badIndex 0x19#8) := by
  unfold execTpSetlen at h
  split at h
  · next hn =>
    rw [groupCountLegal_iff] at hn
    rcases unlessBlocked_complete_next h with ⟨e, rfl⟩ | ⟨e, rfl⟩
    · exact .inl ⟨hn, e, rfl⟩
    · exact .inr (.inl ⟨hn, e, rfl⟩)
  · next hn =>
    rw [groupCountLegal_iff] at hn
    injection h with h
    exact .inr (.inr ⟨by omega, h.symm⟩)

theorem execTpPack_next {s t : State} (h : execTpPack s = .next t) :
    (s.err ≠ 0#4 ∧ t = s.blocked)
      ∨ (s.err = 0#4 ∧ ∃ f, firstUnfit s.row s.f = some f ∧ t = s.raise .fieldRange (fieldInfo f))
      ∨ (s.err = 0#4 ∧ firstUnfit s.row s.f = none
          ∧ t = { s with g := packGroups s.row s.f, glen := BitVec.ofNat 4 s.row.n, resp := 0#32 }) := by
  rcases unlessBlocked_next h with ⟨e, h⟩ | h
  · cases hu : firstUnfit s.row s.f with
    | some f => rw [hu] at h; injection h with h; exact .inr (.inl ⟨e, f, rfl, h.symm⟩)
    | none => rw [hu] at h; injection h with h; exact .inr (.inr ⟨e, rfl, h.symm⟩)
  · exact .inl h

theorem execTpUnpack_next {s t : State} (h : execTpUnpack s = .next t) :
    (s.err ≠ 0#4 ∧ t = s.blocked)
      ∨ (s.err = 0#4 ∧ s.glen.toNat ≠ s.row.n ∧ t = s.raise .lenMismatch (lengthInfo s.glen))
      ∨ (s.err = 0#4 ∧ s.glen.toNat = s.row.n ∧ t = { s with f := unpackFields s.row s.g, resp := 0#32 }) := by
  rcases unlessBlocked_next h with ⟨e, h⟩ | h
  · split at h
    · next hn => injection h with h; exact .inr (.inl ⟨e, hn, h.symm⟩)
    · next hn => injection h with h; exact .inr (.inr ⟨e, by simpa using hn, h.symm⟩)
  · exact .inl h

theorem execRd_next {c : Byte} {s t : State} (h : execRd c s = .next t) :
    (∃ r, selectorOf c = some r ∧ t = s.respond (s.readSelector r))
      ∨ (selectorOf c = none ∧ t = s.raise .badIndex 0x1D#8) := by
  unfold execRd at h
  cases hr : selectorOf c with
  | some r => rw [hr] at h; injection h with h; exact .inl ⟨r, rfl, h.symm⟩
  | none => rw [hr] at h; injection h with h; exact .inr ⟨rfl, h.symm⟩

/-- Every readable value is below 2^31. -/
theorem readSelector_bit31 (s : State) (r : Selector) : (s.readSelector r).getLsbD 31 = false := by
  cases r with
  | status => simp only [State.readSelector, statusWord, BitVec.getLsbD_append]; simp
  | _ => simp [State.readSelector]

/-- Everything a command can do: it is blocked; or it takes a fault (a well-formed one only TP_PACK's or TP_UNPACK's,
with no fault pending); or it completes, with no error word, the fault record as before or cleared, and the
parameters and the host's state as before (as they are in the other two cases too). -/
theorem exec_next_cases {i : Instr} {s t : State} (h : exec i s = .next t) :
    (s.err ≠ 0#4 ∧ t = s.blocked ∧ unblocked i = false)
      ∨ (∃ c n, t = s.raise c n
          ∧ (i.wf = true → s.err = 0#4 ∧ ((i = .tpPack ∧ c = .fieldRange ∧ n.toNat ≤ 6)
              ∨ (i = .tpUnpack ∧ c = .lenMismatch ∧ n = lengthInfo s.glen)))
          ∧ (i.wf = false → c = .badIndex ∧ (n = 0x18#8 ∨ n = 0x19#8 ∨ n = 0x1D#8)))
      ∨ ((s.err = 0#4 ∨ unblocked i = true) ∧ t.resp.getLsbD 31 = false
          ∧ ((t.err = s.err ∧ t.errInfo = s.errInfo)
              ∨ (t.err = 0#4 ∧ t.errInfo = 0#8 ∧ (i = .errclr ∨ i = .swreset)))
          ∧ t.config = s.config ∧ t.prog = s.prog ∧ t.hpc = s.hpc ∧ ((∀ c, i ≠ .rd c) → t.resp = 0#32)) := by
  cases i with
  | tpWrg k v =>
    rcases execTpWrg_next h with ⟨hk, e, rfl⟩ | ⟨_, e, rfl⟩ | ⟨hk, rfl⟩
    · exact .inr (.inr (by simp [e]))
    · exact .inl ⟨e, rfl, rfl⟩
    · have : groupIndexLegal k = false := by simp [groupIndexLegal]; omega
      exact .inr (.inl ⟨_, _, rfl, by simp [Instr.wf, this]⟩)
  | tpSetlen n =>
    rcases execTpSetlen_next h with ⟨hk, e, rfl⟩ | ⟨_, e, rfl⟩ | ⟨hk, rfl⟩
    · exact .inr (.inr (by simp [e]))
    · exact .inl ⟨e, rfl, rfl⟩
    · have : groupCountLegal n = false := by simp [groupCountLegal]; omega
      exact .inr (.inl ⟨_, _, rfl, by simp [Instr.wf, this]⟩)
  | tpPack =>
    rcases execTpPack_next h with ⟨e, rfl⟩ | ⟨e, f, hf, rfl⟩ | ⟨e, hf, rfl⟩
    · exact .inl ⟨e, rfl, rfl⟩
    · exact .inr (.inl ⟨_, _, rfl, by simp [Instr.wf, e]; cases f <;> decide⟩)
    · exact .inr (.inr (by simp [e]))
  | tpUnpack =>
    rcases execTpUnpack_next h with ⟨e, rfl⟩ | ⟨e, hf, rfl⟩ | ⟨e, hf, rfl⟩
    · exact .inl ⟨e, rfl, rfl⟩
    · exact .inr (.inl ⟨_, _, rfl, by simp [Instr.wf, e]⟩)
    · exact .inr (.inr (by simp [e]))
  | rd c =>
    rcases execRd_next h with ⟨r, hr, rfl⟩ | ⟨hr, rfl⟩
    · exact .inr (.inr ⟨.inr rfl, readSelector_bit31 s r, .inl ⟨rfl, rfl⟩, rfl, rfl, rfl, fun h => absurd rfl (h c)⟩)
    · exact .inr (.inl ⟨_, _, rfl, by simp [Instr.wf, hr]⟩)
  | errclr => cases h; exact .inr (.inr (by simp [unblocked]))
  | swreset => cases h; exact .inr (.inr (by simp [unblocked, State.reset]))
  | _ =>
    rcases unlessBlocked_complete_next h with ⟨e, rfl⟩ | ⟨e, rfl⟩
    · exact .inr (.inr (by simp [e]))
    · exact .inl ⟨e, rfl, rfl⟩

/-- A command word either runs its decoded command or has its decode fault taken. -/
theorem runWord_next {w : Word} {s t : State} (h : runWord w s = .next t) :
    (∃ i, decode w = .ok i ∧ exec i s = .next t)
      ∨ ∃ d, decode w = .error d ∧ t = s.raise (decodeFaultCode d) (decodeFaultInfo d) := by
  unfold runWord at h
  cases hd : decode w with
  | ok i => rw [hd] at h; exact .inl ⟨i, rfl, h⟩
  | error d => rw [hd] at h; injection h with h; exact .inr ⟨d, rfl, h.symm⟩

/-- A step that goes on took one event, with the host index moved past it. -/
theorem step_next {s t : State} (h : step s = .next t) :
    ∃ e, s.pending = some e ∧ runEvent e s.advance = .next t := by
  unfold step at h
  cases hp : s.pending with
  | some e => rw [hp] at h; exact ⟨e, rfl, h⟩
  | none => rw [hp] at h; cases h

theorem step_of_pending {s : State} {e : PortEvent} (h : s.pending = some e) : step s = runEvent e s.advance := by
  simp [step, h]

end Sys2Proof.Machine
end

