-- ==== Sys2Proof/Laws/PerInstr.lean ====
section
/-! SUPPORT. Statements made per instruction. `EncodeRow`: a command's encoding has the opcode of one row of the
opcode map and passes that row's mask and match (30_encoding.md R73). -/

namespace Sys2Proof.Laws.EncodeRow

/-- The encoded word belongs to a row of the opcode map. -/
def Statement (i : Instr) : Prop :=
  ((rowOf (opField (encode i))).any fun r => (encode i &&& r.mask) == r.fixed) = true

/-- The I27 rows: the opcode alone decides. -/
theorem ofImmediate (op : BitVec 5) (imm : FieldWord)
    (h : ((rowOf op).any fun r => r.mask == 0xF8000000#32 && op ++ 0#27 == r.fixed) = true) :
    ((rowOf (opField (op ++ imm))).any fun r => ((op ++ imm) &&& r.mask) == r.fixed) = true := by
  rw [opField_append]
  cases hr : rowOf op with
  | none => simp [hr] at h
  | some r =>
    simp only [hr, Option.any_some, Bool.and_eq_true, beq_iff_eq] at h ⊢
    rw [h.1, append_and_opcodeMask]
    exact h.2

theorem nop : Statement .nop := by unfold Statement; decide
theorem pmInit : Statement .pmInit := by unfold Statement; decide
theorem pmStep (v : Symbol) : Statement (.pmStep v) := by unfold Statement; revert v; decide
theorem pmHrph (c : Byte) : Statement (.pmHrph c) := by unfold Statement; revert c; decide
theorem pmHrpl (c : Byte) : Statement (.pmHrpl c) := by unfold Statement; revert c; decide
theorem pmPad6 : Statement .pmPad6 := by unfold Statement; decide
theorem pmCsum (t : Target) : Statement (.pmCsum t) := by cases t <;> (unfold Statement; decide)
theorem pmVerify : Statement .pmVerify := by unfold Statement; decide
theorem tpSetvar (v : BitVec 3) : Statement (.tpSetvar v) := by unfold Statement; revert v; decide
theorem tpWrmagic (imm : FieldWord) : Statement (.tpWrmagic imm) := ofImmediate 0x11#5 imm (by decide)
theorem tpWrflag (imm : FieldWord) : Statement (.tpWrflag imm) := ofImmediate 0x12#5 imm (by decide)
theorem tpWrextv (imm : FieldWord) : Statement (.tpWrextv imm) := ofImmediate 0x13#5 imm (by decide)
theorem tpWrhgt (imm : FieldWord) : Statement (.tpWrhgt imm) := ofImmediate 0x14#5 imm (by decide)
theorem tpWrpos (imm : FieldWord) : Statement (.tpWrpos imm) := ofImmediate 0x15#5 imm (by decide)
theorem tpWrtxo (imm : FieldWord) : Statement (.tpWrtxo imm) := ofImmediate 0x16#5 imm (by decide)
theorem tpWrrsv (imm : FieldWord) : Statement (.tpWrrsv imm) := ofImmediate 0x17#5 imm (by decide)
theorem tpWrg (i : BitVec 4) (v : Symbol) : Statement (.tpWrg i v) := by unfold Statement; revert i v; decide
theorem tpSetlen (n : BitVec 4) : Statement (.tpSetlen n) := by unfold Statement; revert n; decide
theorem tpPack : Statement .tpPack := by unfold Statement; decide
theorem tpUnpack : Statement .tpUnpack := by unfold Statement; decide
theorem tpClr : Statement .tpClr := by unfold Statement; decide
theorem rd (sel : Byte) : Statement (.rd sel) := by unfold Statement; revert sel; decide
theorem errclr : Statement .errclr := by unfold Statement; decide
theorem swreset : Statement .swreset := by unfold Statement; decide

end Sys2Proof.Laws.EncodeRow
end

