-- ==== Sys2Proof/Laws/Polymod.lean ====
section
/-! SUPPORT. The polymod step as an XOR-linear map, and sequences of steps. -/

namespace Sys2Proof.Machine

@[simp] theorem polymodFrom_nil (gen : Vector Acc 5) (a : Acc) : polymodFrom gen a [] = a := rfl

@[simp] theorem polymodFrom_cons (gen : Vector Acc 5) (a : Acc) (v : Symbol) (vs : List Symbol) :
    polymodFrom gen a (v :: vs) = polymodFrom gen (polymodStep gen a v) vs := rfl

theorem polymodFrom_append (gen : Vector Acc 5) (a : Acc) (vs ws : List Symbol) :
    polymodFrom gen a (vs ++ ws) = polymodFrom gen (polymodFrom gen a vs) ws := by
  simp [polymodFrom]

/-- One conditional XOR of the step. -/
def conditional (b : Bool) (x : Acc) : Acc := if b then x else 0#30

theorem conditional_xor (a b : Bool) (x : Acc) : conditional (a ^^ b) x = conditional a x ^^^ conditional b x := by
  cases a <;> cases b <;> simp [conditional]

theorem ite_xor (b : Bool) (a x : Acc) : (if b then a ^^^ x else a) = a ^^^ conditional b x := by
  cases b <;> simp [conditional]

/-- What the top five bits contribute to the next accumulator. -/
def feedback (gen : Vector Acc 5) (top : Symbol) : Acc :=
  conditional (top.getLsbD 0) gen[0] ^^^ conditional (top.getLsbD 1) gen[1] ^^^ conditional (top.getLsbD 2) gen[2]
    ^^^ conditional (top.getLsbD 3) gen[3] ^^^ conditional (top.getLsbD 4) gen[4]

/-- The step splits into the shifted low bits, the symbol, and the feedback of the top bits. -/
theorem polymodStep_split (gen : Vector Acc 5) (a : Acc) (v : Symbol) :
    polymodStep gen a v
      = ((a &&& 0x1FFFFFF#30) <<< 5) ^^^ v.setWidth 30 ^^^ feedback gen (a.extractLsb' 25 5) := by
  have h : List.finRange 5 = [0, 1, 2, 3, 4] := by decide
  simp [polymodStep, h, ite_xor, feedback, BitVec.xor_assoc]

theorem feedback_xor (gen : Vector Acc 5) (x y : Symbol) :
    feedback gen (x ^^^ y) = feedback gen x ^^^ feedback gen y := by
  simp only [feedback, BitVec.getLsbD_xor, conditional_xor]
  ac_rfl

/-- The step is XOR-linear in accumulator and symbol together. -/
theorem polymodStep_xor (gen : Vector Acc 5) (a b : Acc) (v w : Symbol) :
    polymodStep gen (a ^^^ b) (v ^^^ w) = polymodStep gen a v ^^^ polymodStep gen b w := by
  have h1 : (a ^^^ b) &&& 0x1FFFFFF#30 = (a &&& 0x1FFFFFF#30) ^^^ (b &&& 0x1FFFFFF#30) := by
    ext i hi; simp; cases a[i] <;> cases b[i] <;> simp
  have h2 : (a ^^^ b).extractLsb' 25 5 = a.extractLsb' 25 5 ^^^ b.extractLsb' 25 5 := by
    ext i hi; simp
  rw [polymodStep_split, polymodStep_split, polymodStep_split, h1, h2, feedback_xor, BitVec.shiftLeft_xor_distrib,
    BitVec.setWidth_xor]
  ac_rfl

/-- The step from a zero accumulator brings in the symbol alone. -/
theorem polymodStep_zero (gen : Vector Acc 5) (v : Symbol) : polymodStep gen 0#30 v = v.setWidth 30 := by
  rw [polymodStep_split]
  simp [feedback, conditional]

/-- From an accumulator below 2^25 no generator applies: the step shifts by five bits and brings the symbol in. -/
theorem polymodStep_small (gen : Vector Acc 5) (a : Acc) (v : Symbol) (h : a.toNat < 2 ^ 25) :
    (polymodStep gen a v).toNat = a.toNat * 32 + v.toNat := by
  have top : a.extractLsb' 25 5 = 0#5 := by
    apply BitVec.eq_of_toNat_eq
    simp [BitVec.extractLsb'_toNat, Nat.shiftRight_eq_div_pow]
    omega
  have low : a &&& 0x1FFFFFF#30 = a := by
    apply BitVec.eq_of_toNat_eq
    simpa using Nat.and_two_pow_sub_one_of_lt_two_pow (n := 25) h
  have zero : feedback gen 0#5 = 0#30 := by simp [feedback, conditional]
  have hv := v.isLt
  rw [polymodStep_split, top, low, zero, BitVec.xor_zero, BitVec.toNat_xor, BitVec.toNat_shiftLeft, BitVec.toNat_setWidth,
    Nat.mod_eq_of_lt (by omega : v.toNat < 2 ^ 30), Nat.shiftLeft_eq, Nat.mod_eq_of_lt (by omega)]
  have := Nat.two_pow_add_eq_or_of_lt (i := 5) (b := v.toNat) hv a.toNat
  rw [Nat.mul_comm] at this
  apply Nat.eq_of_testBit_eq
  intro k
  rw [show a.toNat * 32 + v.toNat = a.toNat * 2 ^ 5 + v.toNat by norm_num, this, Nat.testBit_xor, Nat.testBit_or]
  by_cases hk : k < 5
  · rw [show a.toNat * 32 = a.toNat <<< 5 by simp [Nat.shiftLeft_eq]]
    simp [Nat.testBit_shiftLeft, show ¬ 5 ≤ k by omega]
  · simp [Nat.testBit_lt_two_pow (Nat.lt_of_lt_of_le hv (Nat.pow_le_pow_right (by omega) (by omega : 5 ≤ k)))]

/-- Six symbols fed from a zero accumulator are its six groups. -/
theorem polymodFrom_checksumSymbols (gen : Vector Acc 5) (c : Acc) : polymodFrom gen 0#30 (checksumSymbols c) = c := by
  have e : List.finRange 6 = [0, 1, 2, 3, 4, 5] := by decide
  have g : ∀ i : Fin 6, (chkGroup c i).toNat = c.toNat / 2 ^ (25 - 5 * i.val) % 32 := by
    intro i; simp [chkGroup, BitVec.extractLsb'_toNat, Nat.shiftRight_eq_div_pow]
  have g0 := g 0
  have g1 := g 1
  have g2 := g 2
  have g3 := g 3
  have g4 := g 4
  have g5 := g 5
  norm_num at g0 g1 g2 g3 g4 g5
  have hc := c.isLt
  simp only [checksumSymbols, e, List.map_cons, List.map_nil, polymodFrom_cons, polymodFrom_nil]
  have s0 := polymodStep_small gen 0#30 (chkGroup c 0) (by decide)
  have s1 := polymodStep_small gen _ (chkGroup c 1) (by rw [s0, g0]; norm_num; omega)
  have s2 := polymodStep_small gen _ (chkGroup c 2) (by rw [s1, s0, g0, g1]; norm_num; omega)
  have s3 := polymodStep_small gen _ (chkGroup c 3) (by rw [s2, s1, s0, g0, g1, g2]; norm_num; omega)
  have s4 := polymodStep_small gen _ (chkGroup c 4) (by rw [s3, s2, s1, s0, g0, g1, g2, g3]; norm_num; omega)
  have s5 := polymodStep_small gen _ (chkGroup c 5) (by rw [s4, s3, s2, s1, s0, g0, g1, g2, g3, g4]; norm_num; omega)
  apply BitVec.eq_of_toNat_eq
  rw [s5, s4, s3, s2, s1, s0, g0, g1, g2, g3, g4, g5]
  norm_num
  omega
/-- Feeding symbols splits into feeding zeros from one summand and the symbols from the other. -/
theorem polymodFrom_xor (gen : Vector Acc 5) (a b : Acc) (vs : List Symbol) :
    polymodFrom gen (a ^^^ b) vs = polymodFrom gen a (List.replicate vs.length 0#5) ^^^ polymodFrom gen b vs := by
  induction vs generalizing a b with
  | nil => rfl
  | cons v vs ih =>
    have h := polymodStep_xor gen a b 0#5 v
    rw [BitVec.zero_xor] at h
    simp only [polymodFrom_cons, List.length_cons, List.replicate_succ]
    rw [h, ih]

end Sys2Proof.Machine
end

