-- ==== Sys2Proof/Tests/Slice0.lean ====
section
/-! SUPPORT. Tests of PMTX-v7. Expected results come from the spec: the opcode map and formats (30_encoding.md R71, R73)
for the words, the vectors of 95_test_vectors.md (named beside each test) for the effects. The last part shows, for
every statement with hypotheses, a concrete case that meets them. -/

namespace Sys2Proof.Tests

open Sys2Proof.Machine

/-! ### Well-formedness refuses -/

theorem test_wf_group_index_13_refused : (Instr.tpWrg 13#4 0#5).wf = false := by decide
theorem test_wf_group_count_14_refused : (Instr.tpSetlen 14#4).wf = false := by decide
theorem test_wf_selector_03_refused : (Instr.rd 0x03#8).wf = false := by decide
theorem test_wf_boundaries_accepted :
    (Instr.tpWrg 12#4 31#5).wf = true ∧ (Instr.tpSetlen 13#4).wf = true ∧ (Instr.rd 0x2C#8).wf = true := by decide

/-! ### Decoding: one word per constructor, bit by bit from the pattern column of R71 -/

theorem test_decode_nop : decode 0b00000_000000000000000000000000000#32 = .ok .nop := by decide
theorem test_decode_pmInit : decode 0b00001_000000000000000000000000000#32 = .ok .pmInit := by decide
theorem test_decode_pmStep : decode 0b00010_0000000000000000000000_10011#32 = .ok (.pmStep 19#5) := by decide
theorem test_decode_pmHrph : decode 0b00011_0000000000000000000_01111000#32 = .ok (.pmHrph 0x78#8) := by decide
theorem test_decode_pmHrpl : decode 0b00100_0000000000000000000_10000001#32 = .ok (.pmHrpl 0x81#8) := by decide
theorem test_decode_pmPad6 : decode 0b00101_000000000000000000000000000#32 = .ok .pmPad6 := by decide
theorem test_decode_pmCsum_original : decode 0b00110_00000000000000000000000000_0#32 = .ok (.pmCsum .original) := by decide
theorem test_decode_pmCsum_modern : decode 0b00110_00000000000000000000000000_1#32 = .ok (.pmCsum .modern) := by decide
theorem test_decode_pmVerify : decode 0b00111_000000000000000000000000000#32 = .ok .pmVerify := by decide
theorem test_decode_tpSetvar : decode 0b10000_000000000000000000000000_011#32 = .ok (.tpSetvar 3#3) := by decide
theorem test_decode_tpWrmagic : decode 0b10001_000000000000000000000000011#32 = .ok (.tpWrmagic 3#27) := by decide
theorem test_decode_tpWrflag : decode 0b10010_000000000000000000000000001#32 = .ok (.tpWrflag 1#27) := by decide
theorem test_decode_tpWrextv : decode 0b10011_100000000000000000000000000#32 = .ok (.tpWrextv 0x4000000#27) := by decide
theorem test_decode_tpWrhgt : decode 0b10100_000000001110001111101101001#32 = .ok (.tpWrhgt 466793#27) := by decide
theorem test_decode_tpWrpos : decode 0b10101_000000000000000100010011101#32 = .ok (.tpWrpos 2205#27) := by decide
theorem test_decode_tpWrtxo : decode 0b10110_000000000000000000000000111#32 = .ok (.tpWrtxo 7#27) := by decide
theorem test_decode_tpWrrsv : decode 0b10111_111111111111111111111111111#32 = .ok (.tpWrrsv 0x7FFFFFF#27) := by decide
theorem test_decode_tpWrg : decode 0b11000_000000000000000_1100_000_11111#32 = .ok (.tpWrg 12#4 31#5) := by decide
theorem test_decode_tpSetlen : decode 0b11001_00000000000000000000000_1101#32 = .ok (.tpSetlen 13#4) := by decide
theorem test_decode_tpPack : decode 0b11010_000000000000000000000000000#32 = .ok .tpPack := by decide
theorem test_decode_tpUnpack : decode 0b11011_000000000000000000000000000#32 = .ok .tpUnpack := by decide
theorem test_decode_tpClr : decode 0b11100_000000000000000000000000000#32 = .ok .tpClr := by decide
theorem test_decode_rd : decode 0b11101_0000000000000000000_00101100#32 = .ok (.rd 0x2C#8) := by decide
theorem test_decode_errclr : decode 0b11110_000000000000000000000000000#32 = .ok .errclr := by decide
theorem test_decode_swreset : decode 0b11111_000000000000000000000000000#32 = .ok .swreset := by decide

/-- L2-EX-1, -2, -3, -6, -8, -9, -10, and bit 7 of TP_WRG, which stands between its operands. -/
theorem test_decode_refusals :
    decode 0x40000000#32 = .error (.illegalOp 0x08#5) ∧ decode 0x7FFFFFFF#32 = .error (.illegalOp 0x0F#5) ∧
    decode 0x10000020#32 = .error (.rsvdBits 0x02#5) ∧ decode 0xC0000080#32 = .error (.rsvdBits 0x18#5) ∧
    decode 0xE8000003#32 = .error (.badIndex 0x1D#5) ∧ decode 0xE800002D#32 = .error (.badIndex 0x1D#5) ∧
    decode 0xC0000D00#32 = .error (.badIndex 0x18#5) ∧ decode 0xC800000E#32 = .error (.badIndex 0x19#5) := by decide

/-- Reserved bits are looked at before the index (R77): TP_SETLEN 14 with bit 4 set. -/
theorem test_decode_reserved_before_index : decode 0xC800001E#32 = .error (.rsvdBits 0x19#5) := by decide

/-! ### One step each -/

/-- The state after a step that goes on, with the word handed over next. -/
def after (s : State) (w : Nat) : Option State :=
  match step (s.withFetchWord 32 w) with
  | .next t => some t
  | .fault _ => none
  | .refused _ => none

/-- A state with an accumulator. -/
def withAcc (a : Acc) : State := { State.reset with acc := a }

/-- A state with a variant and fields. -/
def withFields (v : BitVec 3) (F : Vector FieldWord 7) : State := { State.reset with tvar := v, f := F }

/-- A state with a variant, groups and a count. -/
def withGroups (v : BitVec 3) (g : Vector Symbol 13) (n : BitVec 4) : State :=
  { State.reset with tvar := v, g := g, glen := n }

/-- FIELD_RANGE pending on HEIGHT. -/
def pending : State := { State.reset with err := 4#4, errInfo := 3#8 }

/-- L2-CT-1. -/
theorem test_nop : (after { State.reset with resp := 7#32 } 0x00000000).map (·.resp) = some 0#32 := by decide
/-- R170: while a fault is pending NOP answers the error word. -/
theorem test_nop_blocked : (after pending 0x00000000).map (·.resp) = some 0x80000304#32 := by decide
/-- L2-PM-16. -/
theorem test_pmInit : (after (withAcc 0x15CCFE9E#30) 0x08000000).map (·.acc) = some 1#30 := by decide
/-- L2-PM-3. -/
theorem test_pmStep_all_generators : (after (withAcc 0x3FFFFFFF#30) 0x1000001F).map (·.acc) = some 0x2B326EB4#30 := by decide
/-- L2-EX-13, line 2. -/
theorem test_pmStep_blocked : (after pending 0x10000005).map (·.acc) = some 1#30 := by decide
/-- L2-PM-5. -/
theorem test_pmHrph : (after (withAcc 1#30) 0x180000FF).map (·.acc) = some 0x00000027#30 := by decide
/-- L2-PM-5. -/
theorem test_pmHrpl : (after (withAcc 1#30) 0x20000061).map (·.acc) = some 0x00000021#30 := by decide
/-- L2-PM-6 and L1-1. -/
theorem test_pmPad6 : (after (withAcc 1#30) 0x28000000).map (·.acc) = some 0x3B6A57B2#30 := by decide
theorem test_pmPad6_tag_a : (after (withAcc 0x00008C01#30) 0x28000000).map (·.acc) = some 0x15CCFE9E#30 := by decide
/-- L1-1 and L1-2. -/
theorem test_pmCsum_modern : (after (withAcc 0x15CCFE9E#30) 0x30000001).map (·.chk) = some 0x3E04CE3D#30 := by decide
theorem test_pmCsum_original : (after (withAcc 0x15CCFE9E#30) 0x30000000).map (·.chk) = some 0x15CCFE9F#30 := by decide
/-- L2-PM-14; L1-1; L2-PM-15 (a mismatch is no fault). -/
theorem test_pmVerify_original : (after (withAcc 1#30) 0x38000000).map (·.var) = some 1#2 := by decide
theorem test_pmVerify_mismatch :
    (after { withAcc 0x25#30 with var := 2#2 } 0x38000000).map (fun t => (t.var, t.err)) = some (0#2, 0#4) := by decide
/-- L2-TP-28. -/
theorem test_tpSetvar : (after State.reset 0x80000007).map (·.tvar) = some 7#3 := by decide
/-- L2-TP-33: the whole immediate is stored, in the field of the opcode. -/
theorem test_tpWrmagic : (after State.reset 0x88000020).map (·.f) = some #v[32#27, 0, 0, 0, 0, 0, 0] := by decide
theorem test_tpWrflag : (after State.reset 0x90000001).map (·.f) = some #v[0, 1#27, 0, 0, 0, 0, 0] := by decide
theorem test_tpWrextv : (after State.reset 0x98000001).map (·.f) = some #v[0, 0, 1#27, 0, 0, 0, 0] := by decide
theorem test_tpWrhgt : (after State.reset 0xA7FFFFFF).map (·.f) = some #v[0, 0, 0, 0x7FFFFFF#27, 0, 0, 0] := by decide
theorem test_tpWrpos : (after State.reset 0xA800089D).map (·.f) = some #v[0, 0, 0, 0, 2205#27, 0, 0] := by decide
theorem test_tpWrtxo : (after State.reset 0xB0000007).map (·.f) = some #v[0, 0, 0, 0, 0, 7#27, 0] := by decide
theorem test_tpWrrsv : (after State.reset 0xB8000001).map (·.f) = some #v[0, 0, 0, 0, 0, 0, 1#27] := by decide
/-- L2-TP-32; L2-EX-9. -/
theorem test_tpWrg : (after State.reset 0xC0000C1F).map (fun t => (t.g[12], t.glen)) = some (31#5, 0#4) := by decide
theorem test_tpWrg_index_13 :
    (after State.reset 0xC0000D00).map (fun t => (t.resp, t.err, t.errInfo)) = some (0x80001803#32, 3#4, 0x18#8) := by decide
/-- L2-EX-11; L2-EX-10. -/
theorem test_tpSetlen : (after State.reset 0xC800000D).map (fun t => (t.glen, t.resp)) = some (13#4, 0#32) := by decide
theorem test_tpSetlen_14 : (after State.reset 0xC800000E).map (fun t => (t.glen, t.resp)) = some (0#4, 0x80001903#32) := by decide
/-- L2-TP-11; L2-TP-5 (MAGIC is looked at before HEIGHT). -/
theorem test_tpPack : (after (withFields 1#3 #v[4, 0, 0, 466793, 2205, 3, 0]) 0xD0000000).map (fun t => (t.g, t.glen))
    = some (#v[4, 18, 22, 15, 28, 20, 19, 8, 3, 0, 0, 0, 0], 11#4) := by decide
theorem test_tpPack_magic_first : (after (withFields 0#3 #v[32, 0, 0, 2097152, 0, 0, 0]) 0xD0000000).map
    (fun t => (t.resp, t.glen)) = some (0x80000004#32, 0#4) := by decide
/-- L2-TP-23 (RSV is reported); L2-TP-24. -/
theorem test_tpUnpack : (after (withGroups 1#3 (Vector.replicate 13 31#5) 11#4) 0xD8000000).map (·.f)
    = some #v[31, 1, 0, 2097151, 8191, 8191, 3] := by decide
theorem test_tpUnpack_wrong_length : (after (withGroups 0#3 #v[3, 18, 22, 15, 28, 20, 19, 8, 0, 0, 0, 0, 0] 9#4) 0xD8000000).map
    (fun t => (t.resp, t.f)) = some (0x80000905#32, Vector.replicate 7 0#27) := by decide
/-- L2-TP-30. -/
theorem test_tpClr : (after { withGroups 2#3 (Vector.replicate 13 9#5) 8#4 with f := Vector.replicate 7 5#27 } 0xE0000000).map
    (fun t => (t.f, t.g, t.glen, t.tvar)) = some (Vector.replicate 7 0#27, Vector.replicate 13 0#5, 0#4, 2#3) := by decide
/-- L2-CT-4; L2-CT-3. -/
theorem test_rd_chkg1 : (after { State.reset with chk := 0x3E04CE3D#30 } 0xE8000009).map (·.resp) = some 0#32 ∧
    (after { State.reset with chk := 0x3E04CE3D#30 } 0xE800000D).map (·.resp) = some 0x1D#32 := by decide
theorem test_rd_status : (after { State.reset with glen := 8#4, tvar := 5#3, var := 1#2 } 0xE8000002).map (·.resp)
    = some 0x00850001#32 := by decide
/-- R172's example. -/
theorem test_errclr : (after pending 0xF0000000).map (fun t => (t.err, t.errInfo, t.resp)) = some (0#4, 0#8, 0#32) := by decide
/-- L2-EX-14: a malformed SWRESET does not reset while a fault is pending; a well-formed one does. -/
theorem test_swreset_malformed : (after pending 0xF8000001).map (fun t => (t.resp, t.err)) = some (0x80000304#32, 4#4) := by decide
theorem test_swreset : (after { pending with acc := 0x25#30, tvar := 5#3 } 0xF8000000).map
    (fun t => (t.acc, t.tvar, t.err, t.resp)) = some (1#30, 0#3, 0#4, 0#32) := by decide
/-- R240: a command in progress at the reset event leaves no trace. -/
theorem test_reset_event : (match step { pending with acc := 5#30, prog := [.reset (some 0x88000020#32)] } with
    | .next t => some (t.acc, t.f[0], t.err, t.hpc) | _ => none) = some (1#30, 0#27, 0#4, 1) := by decide
/-- R33: the program ends when the index reaches its length. -/
theorem test_program_ends : (match step State.reset with | .fault .programEnded => true | _ => false) = true := by decide

/-! ### Other parameters than the default ones (00_scope.md R7; 41_txref_packer.md R132) -/

/-- A legal extended row that is not in the default table: EXTV of two bits, a gap before RSV. -/
def otherRow : LayoutRow :=
  { n := 12, magic := ⟨0, 5⟩, flag := ⟨5, 1⟩, extv := ⟨6, 2⟩, height := ⟨8, 22⟩, pos := ⟨30, 14⟩, txo := ⟨44, 13⟩, rsv := ⟨58, 2⟩ }

/-- A legal configuration that is not the default one: another row 3, and other generators and targets. -/
def otherConfig : Config :=
  { gen := Vector.replicate 5 1#30, original := 2#30, modern := 3#30, layout := defaultLayout.set 3 otherRow }


/-- A block built with the other configuration, with a variant and fields. -/
def otherState (v : BitVec 3) (F : Vector FieldWord 7) : State := { withFields v F with config := otherConfig }

/-- R134 by hand: MAGIC 3 in group 0; FLAG at 5, EXTV 2 at 6 (bit 7) and HEIGHT at 8 in group 1; POS at 30; TXO at 44. -/
theorem test_pack_other_row : (after (otherState 3#3 #v[3, 1, 2, 1, 1, 1, 0]) 0xD0000000).map (fun t => (t.g, t.glen))
    = some (#v[3, 13, 0, 0, 0, 0, 1, 0, 16, 0, 0, 0, 0], 12#4) := by decide
/-- R100, R109, R110 by hand: the other generator 0 and the other targets. -/
theorem test_polymod_other_constants :
    (after { otherState 0#3 (Vector.replicate 7 0#27) with acc := 0x02000000#30 } 0x10000000).map (·.acc) = some 1#30 ∧
    (after { otherState 0#3 (Vector.replicate 7 0#27) with acc := 1#30 } 0x30000001).map (·.chk) = some 2#30 ∧
    (after { otherState 0#3 (Vector.replicate 7 0#27) with acc := 2#30 } 0x38000000).map (·.var) = some 1#2 := by decide
/-- R31: SWRESET leaves the parameters. -/
theorem test_swreset_keeps_parameters :
    (after (otherState 3#3 (Vector.replicate 7 0#27)) 0xF8000000).map (fun t => (t.config == otherConfig, t.tvar)) = some (true, 0#3) := by decide

/-! ### The assembler and the algebraic reading -/

/-- L1-13 and P1: `pm.create mod, "a"`. -/
theorem test_assemble_create : assemble "pm.create mod, \"a\"" =
    some [0x08000000#32, 0x18000061#32, 0x10000000#32, 0x20000061#32, 0x28000000#32, 0x30000001#32] := by decide
/-- L1-12: a symbol of 32 is refused. -/
theorem test_assemble_refuses_32 : assemble "pm.step 32" = none ∧ assemble "pm.step 31" = some [0x1000001F#32] := by decide
/-- L2-PM-13: 29 × 2 = 19 in GF(32). -/
theorem test_gfMul : gfMul 29#5 2#5 = 19#5 := by decide

/-! ### Witnesses: every statement's hypotheses can be met -/

/-- Hypothesis `s.err = 0#4` (all commands' completions) and `s.err ≠ 0#4` (all commands' blocking). -/
theorem witness_clear_and_pending : State.reset.err = 0#4 ∧ pending.err ≠ 0#4 := by decide

theorem witness_OpcodeMapDecides :
    ∃ r ∈ opcodeTable, 0x10000011#32 &&& r.mask = r.fixed ∧ (r.build 0x10000011#32).wf = true := by decide
theorem witness_DecodeOfEncodeIsTheCommand : (Instr.tpWrg 12#4 31#5).wf = true := by decide
theorem witness_DecodedWordIsTheEncoding : decode 0xE800002C#32 = .ok (.rd 0x2C#8) := by decide
theorem witness_ReservedOpcodeFaults :
    (0x40000000#32 : Word).extractLsb' 27 5 = 0x08#5 ∧ (0x7FFFFFFF#32 : Word).extractLsb' 27 5 = 0x0F#5 := by decide
theorem witness_ReservedBitsFault : ∃ r ∈ opcodeTable, (0x10000020#32 : Word).extractLsb' 27 5 = r.op ∧
    0x10000020#32 &&& 0x07FFFFFF#32 &&& ~~~ r.format.operandBits ≠ 0#32 := by decide
theorem witness_IndexOutsideItsSpaceFaults : 12 < (13#4).toNat ∧ 13 < (14#4).toNat ∧
    decode 0xE8000003#32 = .error (.badIndex 0x1D#5) ∧ decode 0xC0000D00#32 = .error (.badIndex 0x18#5) ∧
    decode 0xC800000E#32 = .error (.badIndex 0x19#5) := by decide
theorem witness_UndecodedWordWhilePendingKeepsTheRecord :
    pending.err ≠ 0#4 ∧ decode 0xF8000001#32 = .error (.rsvdBits 0x1F#5) ∧ (Instr.tpWrg 13#4 0#5).wf = false := by decide
theorem witness_AssemblerEmitsOnlyDecodableWords : assemble "rd g12" = some [0xE800002C#32] := by decide

/-- A host with one command word, one undecodable word and one reset event to hand over. -/
def hostState (k : Nat) : State :=
  { State.reset with prog := [.command 0x10000005#32, .command 0x40000000#32, .reset none], hpc := k }

theorem witness_StepRunsTheDecodedCommand :
    (hostState 0).prog[0]? = some (.command 0x10000005#32) ∧ decode 0x10000005#32 = .ok (.pmStep 5#5) ∧
    (hostState 1).prog[1]? = some (.command 0x40000000#32) ∧ decode 0x40000000#32 = .error (.illegalOp 0x08#5) ∧
    (hostState 2).prog[2]? = some (.reset none) := by decide
theorem witness_HostIndexAdvancesByOne : (hostState 2).hpc < (hostState 2).prog.length ∧
    (match step (hostState 0) with | .next t => some t.hpc | _ => none) = some 1 := by decide
theorem witness_PlacedWordIsRunNext : 0xFFFFFFFF < 2 ^ 32 := by decide

/-- Whether a word's outcome is a next state with a property. -/
def runsTo (w : Word) (s : State) (p : State → Bool) : Bool :=
  match runWord w s with
  | .next t => p t
  | _ => false

theorem witness_CommandsAreAtomic :
    runsTo 0x10000005#32 pending (fun t => t.resp.getLsbD 31) = true ∧
    runsTo 0xD0000000#32 State.reset (fun t => t.glen == 8#4) = true ∧
    runsTo 0xD8000000#32 State.reset (fun t => t.err == 5#4) = true := by decide
theorem witness_HardwareResetEvent : runsTo 0x10000005#32 State.reset (fun t => t.acc == 0x25#30) = true := by decide
theorem witness_ResponseWordOfEveryCommand :
    decode 0x40000000#32 = .error (.illegalOp 0x08#5) ∧
    runsTo 0x40000000#32 State.reset (fun t => t.err == 1#4) = true ∧
    runsTo 0x00000000#32 pending (fun t => t.resp == 0x80000304#32) = true ∧
    runsTo 0xD8000000#32 State.reset (fun t => t.err == 5#4) = true ∧
    (selectorOf 0x2C#8).isSome = true ∧ runsTo 0xE800002C#32 pending (fun t => t.resp == 0#32) = true ∧
    runsTo 0x00000000#32 State.reset (fun t => t.err == 0#4) = true := by decide
theorem witness_PendingFaultBlocks : pending.err ≠ 0#4 ∧ Instr.tpPack.wf = true ∧ selectorOf 0x00#8 = some .acc := by decide
theorem witness_OnlyClearOrResetEndsBlocking : pending.err ≠ 0#4 ∧
    decode 0xF0000000#32 = .ok .errclr ∧ decode 0xF8000000#32 = .ok .swreset ∧ decode 0x00000000#32 = .ok .nop ∧
    decode 0xF0000001#32 = .error (.rsvdBits 0x1E#5) ∧
    runsTo 0xF0000000#32 pending (fun t => t.err == 0#4) = true ∧
    runsTo 0x00000000#32 pending (fun t => t.err == 4#4) = true ∧
    runsTo 0xF0000001#32 pending (fun t => t.err == 4#4 && t.errInfo == 3#8) = true := by decide
theorem witness_WhichFaultsEachCommandRaises :
    decode 0x40000000#32 = .error (.illegalOp 0x08#5) ∧ decode 0x00000001#32 = .error (.rsvdBits 0x00#5) ∧
    decode 0xE8000003#32 = .error (.badIndex 0x1D#5) ∧
    runsTo 0xD0000000#32 (withFields 0#3 #v[32, 0, 0, 0, 0, 0, 0]) (fun t => t.err == 4#4) = true := by decide
theorem witness_NopOnlyAnswers :
    (0x00000001#32 : Word).extractLsb' 27 5 = 0x00#5 ∧ runsTo 0#32 pending (fun t => t.resp.getLsbD 31) = true := by decide
theorem witness_RdReadsTheSelectorMap :
    (0x2C#8 : Byte).toNat ≤ 0x2C ∧ 0x0D < (0x0E#8 : Byte).toNat ∧ selectorOf 0x0E#8 = none ∧ selectorOf 0x2D#8 = none ∧
    selectorOf 0x07#8 = none ∧ selectorOf 0x17#8 = none ∧ selectorOf 0x1F#8 = none := by decide
theorem witness_ReadsHaveNoSideEffects : (Instr.rd 0x02#8).wf = true := by decide
theorem witness_ErrclrClearsThePendingFault :
    (0xF0000001#32 : Word).extractLsb' 27 5 = 0x1E#5 ∧ State.reset.err = 0#4 ∧ State.reset.errInfo = 0#8 := by decide
theorem witness_SwresetResetsEveryRegister : (0xF8000001#32 : Word).extractLsb' 27 5 = 0x1F#5 := by decide
theorem witness_operand_words :
    0x1000001F#32 &&& 0xFFFFFFE0#32 = 0x10000000#32 ∧ 0x180000FF#32 &&& 0xFFFFFF00#32 = 0x18000000#32 ∧
    0x200000FF#32 &&& 0xFFFFFF00#32 = 0x20000000#32 ∧ 0x30000001#32 &&& 0xFFFFFFFE#32 = 0x30000000#32 ∧
    0x80000007#32 &&& 0xFFFFFFF8#32 = 0x80000000#32 := by decide
theorem witness_PmVerifyClassifiesTheAccumulator :
    (withAcc 0x2BC830A3#30).acc = (withAcc 0x2BC830A3#30).config.modern ∧ (withAcc 1#30).acc ≠ (withAcc 1#30).config.modern ∧
    (withAcc 1#30).acc = (withAcc 1#30).config.original ∧
    (withAcc 0#30).acc ≠ (withAcc 0#30).config.modern ∧ (withAcc 0#30).acc ≠ (withAcc 0#30).config.original := by decide
/-- P1's data part: a verifying string, and another symbol in its last place. -/
theorem witness_OneAlteredSymbolIsDetected : (29#5 : Symbol) ≠ 0#5 ∧
    verifyChecksum defaultConfig [0x61#8] ([31#5, 0#5, 9#5, 19#5, 17#5] ++ 29#5 :: []) .modern = true := by decide
theorem witness_VariantsAreExclusive : State.reset.config.original ≠ State.reset.config.modern := by decide
theorem witness_VariantMaxima : State.reset.err = 0#4 ∧ State.reset.config.layout = defaultLayout := by decide
theorem witness_TpWrgWritesOneGroup : (12#4).toNat < 13 ∧ 13 ≤ (13#4).toNat := by decide
theorem witness_TpSetlenSetsTheCount : (13#4).toNat ≤ 13 ∧ 13 < (14#4).toNat := by decide

theorem witness_legal_row : otherRow.Legal true := by constructor <;> decide
theorem witness_LegacyMainStandardRowIsForced : otherConfig.Legal := by
  refine ⟨fun v => ?_, by decide, by decide, by decide⟩
  fin_cases v <;> constructor <;> decide
theorem witness_StepKeepsTheInvariant : { hostState 0 with config := otherConfig }.Inv ∧
    (match step { hostState 0 with config := otherConfig } with | .next t => some t.acc | _ => none) = some 0x25#30 :=
  ⟨⟨witness_LegacyMainStandardRowIsForced, by decide, by decide, by decide, by decide⟩, by decide⟩
/-- Configurations with different targets: the default one, and another legal one. -/
theorem witness_CheckSequenceClassifies : State.reset.err = 0#4 ∧ State.reset.config.original ≠ State.reset.config.modern ∧
    otherConfig.original ≠ otherConfig.modern := by decide
theorem witness_fields_fit : FieldsFit otherRow #v[31, 1, 3, 4194303, 16383, 8191, 0] := by
  intro f; cases f <;> decide
theorem witness_PackPlacesEveryFieldBit :
    (FieldId.txo ≠ .rsv ∧ 12 < (otherRow.slot .txo).width ∧ 5 * 11 + 1 = (otherRow.slot .txo).off + 12) ∧
    ∀ f : FieldId, f ≠ .rsv → ¬ Covers otherRow f (5 * 11 + 2) := by
  refine ⟨by decide, fun f => ?_⟩
  cases f <;> decide
/-- A standard row too; row 0 at its maxima (R149). -/
theorem witness_TpPackPacksOrFaults :
    FieldsFit (withFields 0#3 #v[31, 1, 0, 2097151, 8191, 0, 0]).row #v[31, 1, 0, 2097151, 8191, 0, 0] ∧
    ¬ Fits (withFields 0#3 #v[31, 1, 0, 2097152, 8191, 0, 1]).row #v[31, 1, 0, 2097152, 8191, 0, 1] .height ∧
    ∀ j : FieldId, j.idx < FieldId.height.idx →
      Fits (withFields 0#3 #v[31, 1, 0, 2097152, 8191, 0, 1]).row #v[31, 1, 0, 2097152, 8191, 0, 1] j := by
  refine ⟨fun f => ?_, by decide, fun j => ?_⟩
  · cases f <;> decide
  · cases j <;> decide
theorem witness_TpUnpackUnpacksOrFaults :
    (withGroups 1#3 (Vector.replicate 13 31#5) 11#4).glen.toNat = (withGroups 1#3 (Vector.replicate 13 31#5) 11#4).row.n ∧
    (withGroups 1#3 (Vector.replicate 13 31#5) 8#4).glen.toNat ≠ (withGroups 1#3 (Vector.replicate 13 31#5) 8#4).row.n := by decide
theorem otherRow_covered : ∀ (i : Fin 13) (b : Fin 5), i.val < 12 →
    (#v[31#5, 31#5, 31#5, 31#5, 31#5, 31#5, 31#5, 31#5, 31#5, 31#5, 31#5, 3#5, 31#5])[i].getLsbD b.val = true →
    ∃ f ∈ FieldId.all, f ≠ .rsv ∧ Covers otherRow f (5 * i.val + b.val) := by decide
/-- First clause: fields that fit the other configuration's row 3. Second clause: groups of that row whose bits of no
field (positions 57 to 59) are zero. -/
theorem witness_PackUnpackRoundTrip :
    let s := { otherState 3#3 #v[31, 1, 3, 4194303, 16383, 8191, 0] with
      g := #v[31, 31, 31, 31, 31, 31, 31, 31, 31, 31, 31, 3, 31], glen := 12#4 }
    s.config.Legal ∧ s.err = 0#4 ∧ FieldsFit s.row s.f ∧ s.glen.toNat = s.row.n ∧
    ∀ (i : Fin 13) (b : Fin 5), i.val < s.row.n → (∀ f : FieldId, f ≠ .rsv → ¬ Covers s.row f (5 * i.val + b.val)) →
      s.g[i].getLsbD b.val = false := by
  refine ⟨witness_LegacyMainStandardRowIsForced, by decide, witness_fields_fit, by decide, fun i b hi h => ?_⟩
  by_contra hb
  obtain ⟨f, _, hf, hc⟩ := otherRow_covered i b hi (by simpa using hb)
  exact h f hf hc
/-- Third clause: row 1 of the default table, RSV bits (positions 53 and 54) zero, all other bits one. -/
theorem witness_PackUnpackRoundTrip_default :
    let s := withGroups 1#3 #v[31, 31, 31, 31, 31, 31, 31, 31, 31, 31, 7, 31, 31] 11#4
    s.config.layout = defaultLayout ∧ s.err = 0#4 ∧ s.glen.toNat = s.row.n ∧
    extractField s.row (groupBits s.g s.row.n) .rsv = 0 := by decide
theorem witness_StaleGroupsNeverLeak :
    let s := withGroups 0#3 (Vector.replicate 13 31#5) 8#4
    s.glen.toNat = s.row.n ∧ ∀ i : Fin 13, i.val < s.row.n →
      (#v[31#5, 31#5, 31#5, 31#5, 31#5, 31#5, 31#5, 31#5, 0#5, 0#5, 0#5, 0#5, 0#5])[i] = s.g[i] := by decide
theorem witness_OnlyTheListedCommandsWriteARegister :
    runsTo 0x10000005#32 State.reset (fun t => t.acc != 1#30) = true ∧
    runsTo 0xF0000000#32 pending (fun t => t.errInfo != pending.errInfo) = true ∧
    runsTo 0xF8000000#32 (withGroups 5#3 (Vector.replicate 13 1#5) 3#4) (fun t => t.g == State.reset.g) = true := by decide

end Sys2Proof.Tests
end

/-! Every command word has a next state (00_scope.md R11), and what a step runs (10_state.md R33). -/

namespace Sys2Proof.Machine

/-! ### Totality: no command hangs (R11) -/

theorem unlessBlocked_exists_next (s : State) {k : Host.Outcome State Fault Refusal} (hk : ∃ t, k = .next t) :
    ∃ t, unlessBlocked s k = .next t := by
  by_cases e : s.err = 0#4
  · rwa [unlessBlocked_of_clear e]
  · exact ⟨_, unlessBlocked_of_pending e k⟩

theorem exec_exists_next (i : Instr) (s : State) : ∃ t, exec i s = .next t := by
  cases i with
  | tpWrg k v =>
    simp only [exec, execTpWrg]
    split
    · exact unlessBlocked_exists_next s ⟨_, rfl⟩
    · exact ⟨_, rfl⟩
  | tpSetlen n =>
    simp only [exec, execTpSetlen]
    split
    · exact unlessBlocked_exists_next s ⟨_, rfl⟩
    · exact ⟨_, rfl⟩
  | tpPack =>
    refine unlessBlocked_exists_next s ?_
    split <;> exact ⟨_, rfl⟩
  | tpUnpack =>
    refine unlessBlocked_exists_next s ?_
    split <;> exact ⟨_, rfl⟩
  | rd c =>
    simp only [exec, execRd]
    split <;> exact ⟨_, rfl⟩
  | errclr => exact ⟨_, rfl⟩
  | swreset => exact ⟨_, rfl⟩
  | _ => exact unlessBlocked_exists_next s ⟨_, rfl⟩

/-! ### A command word by its decoding -/

theorem runWord_of_decode_ok {w : Word} {i : Instr} (h : decode w = .ok i) (s : State) : runWord w s = exec i s := by
  simp [runWord, h]

theorem runWord_of_decode_error {w : Word} {d : DecodeFault} (h : decode w = .error d) (s : State) :
    runWord w s = .next (s.raise (decodeFaultCode d) (decodeFaultInfo d)) := by
  simp [runWord, h]

theorem runWord_exists_next (w : Word) (s : State) : ∃ t, runWord w s = .next t := by
  cases h : decode w with
  | ok i => rw [runWord_of_decode_ok h]; exact exec_exists_next i s
  | error d => exact ⟨_, runWord_of_decode_error h s⟩

/-! ### Taking a fault -/

/-- First fault wins (60_exceptions.md R205), as the two outcomes of R11 that are no completion. -/
theorem State.raise_records_or_stands (s : State) (c : FaultCode) (n : BitVec 8) :
    (s.err = 0#4 ∧ ∃ (code : FaultCode) (info : BitVec 8),
        s.raise c n = { s with err := code.number, errInfo := info, resp := errorWord code.number info })
      ∨ (s.err ≠ 0#4 ∧ s.raise c n = { s with resp := errorWord s.err s.errInfo }) := by
  by_cases e : s.err = 0#4
  · exact .inl ⟨e, c, n, s.raise_of_clear c n e⟩
  · exact .inr ⟨e, s.raise_of_pending c n e⟩

/-! ### The obligations -/

/-- Settles O13: every word has a next state, and the inversion of `runWord` and `exec` says which of the three
outcomes it is. -/
theorem everyWordCompletesFaultsOrIsBlocked : Obligations.EveryWordCompletesFaultsOrIsBlocked := by
  intro w s
  obtain ⟨t, ht⟩ := runWord_exists_next w s
  refine ⟨t, ht, ?_⟩
  rcases runWord_next ht with ⟨i, hi, hx⟩ | ⟨d, -, rfl⟩
  · rcases exec_next_cases hx with ⟨e, rfl, -⟩ | ⟨c, n, rfl, -⟩ | ⟨hrun, hresp, -⟩
    · exact .inr (.inr ⟨e, rfl⟩)
    · exact .inr (s.raise_records_or_stands c n)
    · exact .inl ⟨i, hi, hrun, hresp⟩
  · exact .inr (s.raise_records_or_stands _ _)

/-- Settles O10: a step runs the pending event, and a command word is run by its decoding. -/
theorem stepRunsTheDecodedCommand : Obligations.StepRunsTheDecodedCommand := by
  refine ⟨fun s w i hp hd => ?_, fun s w d hp hd => ?_, fun s o hp => step_of_pending hp⟩
  · exact (step_of_pending hp).trans (runWord_of_decode_ok hd s.advance)
  · exact (step_of_pending hp).trans (runWord_of_decode_error hd s.advance)

end Sys2Proof.Machine

/-! The state family: what every step leaves alone, which command writes which register, the response word, and the
invariant (10_state.md). -/

/-! ### What a word that fails decode says about its opcode (R74 to R76) -/

namespace Sys2Proof

/-- Everything a word that fails decode says about its fault: the check of R77 that failed first. -/
theorem decode_error {w : Word} {d : DecodeFault} (h : decode w = .error d) :
    (d = .illegalOp (opField w) ∧ rowOf (opField w) = none)
      ∨ (∃ r, rowOf (opField w) = some r ∧ w &&& r.mask ≠ r.fixed ∧ d = .rsvdBits (opField w))
      ∨ (∃ r, rowOf (opField w) = some r ∧ w &&& r.mask = r.fixed ∧ (r.build w).wf = false
          ∧ d = .badIndex (opField w)) := by
  unfold decode at h
  split at h
  · next hr =>
    cases h
    exact .inl ⟨rfl, hr⟩
  · next r hr =>
    split at h
    · next hm =>
      cases h
      exact .inr (.inl ⟨r, hr, hm, rfl⟩)
    · next hm =>
      split at h
      · cases h
      · next hw =>
        cases h
        exact .inr (.inr ⟨r, hr, by simpa using hm, by simpa using hw, rfl⟩)

/-- The opcodes of the map are those outside 0x08 to 0x0F (R73, R74). -/
theorem rowOf_isNone_iff : ∀ op : BitVec 5, (rowOf op).isNone = true ↔ 0x08 ≤ op.toNat ∧ op.toNat ≤ 0x0F := by
  decide

/-- A word of an I27 row has no reserved bit (R75). -/
theorem and_mask_of_immediate_row {w : Word} {r : OpRow} (hr : rowOf (opField w) = some r)
    (hlo : 0x11 ≤ (opField w).toNat) (hhi : (opField w).toNat ≤ 0x17) : w &&& r.mask = r.fixed := by
  have hrow : ∀ op : BitVec 5, 0x11 ≤ op.toNat → op.toNat ≤ 0x17 →
      ((rowOf op).any fun r => r.mask == 0xF8000000#32 && op ++ 0#27 == r.fixed) = true := by decide
  have h := Laws.EncodeRow.ofImmediate _ (immField w) (hrow _ hlo hhi)
  rw [opField_append_immField, hr] at h
  simpa using h

/-- Only RD, TP_WRG and TP_SETLEN have an index to check (R76). -/
theorem opcode_of_build_not_wf {w : Word} {r : OpRow} (hr : r ∈ opcodeTable) (hw : (r.build w).wf = false) :
    r.op = 0x18#5 ∨ r.op = 0x19#5 ∨ r.op = 0x1D#5 := by
  revert r
  simp [opcodeTable, polymodRows, packerRows, controlRows, Instr.wf]

theorem rowOf_eq_some {op : BitVec 5} {r : OpRow} (h : rowOf op = some r) : r ∈ opcodeTable ∧ r.op = op :=
  ⟨List.mem_of_find?_eq_some h, by simpa using List.find?_some h⟩

end Sys2Proof

namespace Sys2Proof.Machine

/-! ### What no command, event or step writes: the parameters (R31) and the host's state (R33) -/

theorem exec_keeps_config_and_host {i : Instr} {s t : State} (h : exec i s = .next t) :
    t.config = s.config ∧ t.prog = s.prog ∧ t.hpc = s.hpc := by
  rcases exec_next_cases h with ⟨-, rfl, -⟩ | ⟨c, n, rfl, -⟩ | ⟨-, -, -, hconfig, hprog, hhpc, -⟩
  · exact ⟨rfl, rfl, rfl⟩
  · simp
  · exact ⟨hconfig, hprog, hhpc⟩

theorem runEvent_keeps_config_and_host {e : PortEvent} {s t : State} (h : runEvent e s = .next t) :
    t.config = s.config ∧ t.prog = s.prog ∧ t.hpc = s.hpc := by
  cases e with
  | command w =>
    rcases runWord_next h with ⟨i, -, hx⟩ | ⟨d, -, rfl⟩
    · exact exec_keeps_config_and_host hx
    · simp
  | reset o => cases h; exact ⟨rfl, rfl, rfl⟩

theorem step_keeps_config_and_prog_and_moves_index {s t : State} (h : step s = .next t) :
    t.config = s.config ∧ t.prog = s.prog ∧ t.hpc = s.hpc + 1 := by
  obtain ⟨e, -, he⟩ := step_next h
  simpa using runEvent_keeps_config_and_host he

/-! ### When there is a step (R33) -/

theorem runEvent_exists_next (e : PortEvent) (s : State) : ∃ t, runEvent e s = .next t := by
  cases e with
  | command w => exact runWord_exists_next w s
  | reset o => exact ⟨_, rfl⟩

theorem State.pending_eq_none_iff (s : State) : s.pending = none ↔ s.prog.length ≤ s.hpc :=
  List.getElem?_eq_none_iff

theorem step_of_ended {s : State} (h : s.prog.length ≤ s.hpc) : step s = .fault .programEnded := by
  simp [step, s.pending_eq_none_iff.2 h]

theorem step_exists_next {s : State} (h : s.hpc < s.prog.length) : ∃ t, step s = .next t := by
  rw [step_of_pending (List.getElem?_eq_getElem h)]
  exact runEvent_exists_next _ _

/-- Settles O11: every step moves the index by one and keeps the program, and there is a step exactly while an entry
is left. -/
theorem hostIndexAdvancesByOne : Obligations.HostIndexAdvancesByOne := by
  refine ⟨rfl, fun s t h => ?_, fun s => ⟨fun h => ?_, step_of_ended⟩, fun s => step_exists_next⟩
  · obtain ⟨-, hprog, hhpc⟩ := step_keeps_config_and_prog_and_moves_index h
    exact ⟨hhpc, hprog⟩
  · by_contra hlt
    obtain ⟨t, ht⟩ := step_exists_next (Nat.lt_of_not_le hlt)
    rw [ht] at h
    cases h

/-- Settles O12: the placed word is the pending command, and placing it changes the program alone. -/
theorem placedWordIsRunNext : Obligations.PlacedWordIsRunNext := by
  intro s w hw
  refine ⟨(s.placeCommand (BitVec.ofNat 32 w)).prog, ?_⟩
  rw [State.withFetchWord, Nat.mod_eq_of_lt hw]
  exact step_of_pending (s.placeCommand_pending _)

/-! ### Which command writes which register (R21 to R28) -/

/-- Settles O60: a blocked command writes RESP alone, a fault the record and RESP, and what a completed command writes
stands in its own inversion. A well-formed command takes no BAD_INDEX. -/
theorem onlyTheListedCommandsWriteARegister : Obligations.OnlyTheListedCommandsWriteARegister := by
  refine ⟨fun i s t h => ?_, fun s t h => (step_keeps_config_and_prog_and_moves_index h).1⟩
  cases i with
  | tpWrg k v =>
    rcases execTpWrg_next h with ⟨-, -, rfl⟩ | ⟨-, -, rfl⟩ | ⟨hk, rfl⟩
    · simp
    · simp
    · simp [Instr.wf, groupIndexLegal, show ¬ k.toNat ≤ 12 by omega]
  | tpSetlen n =>
    rcases execTpSetlen_next h with ⟨-, -, rfl⟩ | ⟨-, -, rfl⟩ | ⟨hn, rfl⟩
    · simp
    · simp
    · simp [Instr.wf, groupCountLegal, hn]
  | tpPack => rcases execTpPack_next h with ⟨-, rfl⟩ | ⟨-, f, -, rfl⟩ | ⟨-, -, rfl⟩ <;> simp
  | tpUnpack => rcases execTpUnpack_next h with ⟨-, rfl⟩ | ⟨-, -, rfl⟩ | ⟨-, -, rfl⟩ <;> simp
  | rd c =>
    rcases execRd_next h with ⟨r, -, rfl⟩ | ⟨hc, rfl⟩
    · simp
    · simp [Instr.wf, hc]
  | errclr => cases h; simp
  | swreset => cases h; simp
  | _ => rcases unlessBlocked_complete_next h with ⟨-, rfl⟩ | ⟨-, rfl⟩ <;> simp [FieldId.idx]

/-! ### The response (R29) -/

/-- Where a fault was pending before a command that R206 blocks, or is pending after it, the answer is the error word
of the record as it then stands. -/
theorem exec_resp_of_fault {i : Instr} {s t : State} (h : exec i s = .next t) (hu : unblocked i = false)
    (he : s.err ≠ 0#4 ∨ t.err ≠ 0#4) : t.resp = errorWord t.err t.errInfo := by
  rcases exec_next_cases h with ⟨-, rfl, -⟩ | ⟨c, n, rfl, -⟩ | ⟨hrun, -, hrecord, -⟩
  · rfl
  · exact s.raise_resp c n
  · have hs : s.err = 0#4 := hrun.resolve_right (by simp [hu])
    rcases hrecord with ⟨ht, -⟩ | ⟨ht, -⟩ <;> simp [hs, ht] at he

/-- A command other than RD that leaves no fault pending has completed, and answers 0. -/
theorem exec_resp_of_clear {i : Instr} {s t : State} (h : exec i s = .next t) (hrd : ∀ c, i ≠ .rd c)
    (ht : t.err = 0#4) : t.resp = 0#32 := by
  rcases exec_next_cases h with ⟨hs, rfl, -⟩ | ⟨c, n, rfl, -⟩ | ⟨-, -, -, -, -, -, hresp⟩
  · exact absurd ht hs
  · exact absurd ht (s.raise_err_ne_zero c n)
  · exact hresp hrd

theorem execRd_resp_of_mapped {c : Byte} {r : Selector} {s t : State} (h : execRd c s = .next t)
    (hr : selectorOf c = some r) : t.resp = s.readSelector r := by
  simp only [execRd, hr] at h
  cases h
  rfl

/-- Settles O19: `exec_resp_of_fault`, `execRd_resp_of_mapped` and `exec_resp_of_clear` at the decoded command. -/
theorem responseWordOfEveryCommand : Obligations.ResponseWordOfEveryCommand := by
  refine ⟨rfl, fun w s t h => ?_⟩
  have hexec {i : Instr} (hi : decode w = .ok i) : exec i s = .next t := runWord_of_decode_ok hi s ▸ h
  refine ⟨fun d hd => ?_, fun i hi hs hu => exec_resp_of_fault (hexec hi) hu (.inl hs),
    fun i hi _ ht hu => exec_resp_of_fault (hexec hi) hu (.inr ht), fun c r hi hr => ?_,
    fun i hi => exec_resp_of_clear (hexec hi)⟩
  · rw [runWord_of_decode_error hd] at h
    cases h
    exact s.raise_resp _ _
  · rw [execRd_resp_of_mapped (hexec hi) hr]
    exact ⟨rfl, readSelector_bit31 s r⟩

/-! ### STATUS (R30) -/

/-- The register bit behind each bit of STATUS. -/
theorem statusWord_getLsbD (s : State) (k : Nat) : (statusWord s).getLsbD k =
    if k < 2 then s.var.getLsbD k else if k < 4 then false else if k < 8 then s.err.getLsbD (k - 4)
    else if k < 16 then s.errInfo.getLsbD (k - 8) else if k < 19 then s.tvar.getLsbD (k - 16)
    else if k < 20 then false else if k < 24 then s.glen.getLsbD (k - 20) else false := by
  simp only [statusWord, BitVec.getLsbD_append]
  grind

/-- Settles O27, bit by bit from `statusWord_getLsbD`. -/
theorem statusLayout : Obligations.StatusLayout := by
  refine ⟨fun s => ⟨?_, ?_, ?_, ?_, ?_, ?_, ?_, ?_⟩, by decide⟩
  all_goals
    apply BitVec.eq_of_getLsbD_eq
    intro k hk
    rw [BitVec.getLsbD_extractLsb', statusWord_getLsbD]
    grind

/-! ### Reset (R20) -/

/-- Settles O15: each register by evaluation, the two register files as replicated zeros. -/
theorem resetValues : Obligations.ResetValues := by
  refine ⟨rfl, rfl, rfl, rfl, fun k => ?_, fun i => ?_, rfl, rfl, rfl, rfl⟩
  · exact Vector.getElem_replicate k.isLt
  · exact Vector.getElem_replicate i.isLt

/-- R133 holds of each of the eight default rows, and the targets differ. -/
theorem defaultConfig_legal : defaultConfig.Legal := by
  refine ⟨fun v => ?_, by decide, by decide, by decide⟩
  fin_cases v <;> constructor <;> decide

/-- Settles O17: the default parameters are legal, and the registers' bounds are closed facts. -/
theorem resetSatisfiesTheInvariant : Obligations.ResetSatisfiesTheInvariant :=
  ⟨defaultConfig_legal, by decide, by decide, by decide, by decide⟩

/-! ### The records of R201 -/

theorem faultRecordLegal_illegalOp_iff (n : BitVec 8) :
    faultRecordLegal FaultCode.illegalOp.number n = true ↔ 0x08 ≤ n.toNat ∧ n.toNat ≤ 0x0F := by
  simp [faultRecordLegal, FaultCode.number]

theorem faultRecordLegal_rsvdBits_iff (n : BitVec 8) :
    faultRecordLegal FaultCode.rsvdBits.number n = true ↔
      n.toNat ≤ 0x1F ∧ ¬ (0x08 ≤ n.toNat ∧ n.toNat ≤ 0x0F) ∧ ¬ (0x11 ≤ n.toNat ∧ n.toNat ≤ 0x17) := by
  simp [faultRecordLegal, FaultCode.number, and_assoc, imp_iff_not_or]

theorem faultRecordLegal_fieldRange_iff (n : BitVec 8) :
    faultRecordLegal FaultCode.fieldRange.number n = true ↔ n.toNat ≤ 6 := by
  simp [faultRecordLegal, FaultCode.number]

theorem faultRecordLegal_lenMismatch_iff (n : BitVec 8) :
    faultRecordLegal FaultCode.lenMismatch.number n = true ↔ n.toNat ≤ 13 := by
  simp [faultRecordLegal, FaultCode.number]

/-- The detail of a decode fault is its opcode, and each check of R77 fails only for the opcodes of its record. -/
theorem decodeFault_recordLegal {w : Word} {d : DecodeFault} (h : decode w = .error d) :
    faultRecordLegal (decodeFaultCode d).number (decodeFaultInfo d) = true := by
  have hinfo : ((opField w).setWidth 8).toNat = (opField w).toNat := BitVec.toNat_setWidth_of_le (by omega)
  rcases decode_error h with ⟨rfl, hr⟩ | ⟨r, hr, hm, rfl⟩ | ⟨r, hr, -, hw, rfl⟩
  · have hreserved := (rowOf_isNone_iff (opField w)).1 (by simp [hr])
    refine (faultRecordLegal_illegalOp_iff _).2 ?_
    simpa only [decodeFaultInfo, hinfo] using hreserved
  · have hdefined : ¬ (0x08 ≤ (opField w).toNat ∧ (opField w).toNat ≤ 0x0F) := by
      rw [← rowOf_isNone_iff]
      simp [hr]
    have himmediate : ¬ (0x11 ≤ (opField w).toNat ∧ (opField w).toNat ≤ 0x17) := fun ⟨hlo, hhi⟩ =>
      hm (and_mask_of_immediate_row hr hlo hhi)
    have hle : (opField w).toNat ≤ 0x1F := Nat.le_of_lt_succ (opField w).isLt
    refine (faultRecordLegal_rsvdBits_iff _).2 ?_
    simpa only [decodeFaultInfo, hinfo] using ⟨hle, hdefined, himmediate⟩
  · obtain ⟨hmem, hop⟩ := rowOf_eq_some hr
    rcases hop ▸ opcode_of_build_not_wf hmem hw with hop | hop | hop <;> rw [hop] <;> decide

/-! ### The invariant -/

theorem State.Inv.advance {s : State} (hs : s.Inv) : s.advance.Inv :=
  ⟨hs.configLegal, hs.varLegal, hs.glenLegal, hs.recordLegal, hs.respLegal⟩

theorem State.Inv.resetRegisters {s : State} (hs : s.Inv) : s.resetRegisters.Inv :=
  have hreset := resetSatisfiesTheInvariant
  ⟨hs.configLegal, hreset.varLegal, hreset.glenLegal, hreset.recordLegal, hreset.respLegal⟩

/-- Taking a fault keeps the invariant when its record is one of R201. -/
theorem State.Inv.raise {s : State} (hs : s.Inv) {c : FaultCode} {n : BitVec 8}
    (hrecord : faultRecordLegal c.number n = true) : (s.raise c n).Inv where
  configLegal := by simpa using hs.configLegal
  varLegal := by simpa using hs.varLegal
  glenLegal := by simpa using hs.glenLegal
  recordLegal := by
    by_cases e : s.err = 0#4
    · simpa [s.raise_of_clear c n e] using hrecord
    · simpa [s.raise_of_pending c n e] using hs.recordLegal
  respLegal _ := ⟨s.raise_err_ne_zero c n, s.raise_resp c n⟩

theorem verifyVar_ne_three (c : Config) (a : Acc) : verifyVar c a ≠ 3#2 := by
  unfold verifyVar
  split_ifs <;> decide

theorem layoutRow_count_le {c : Config} (hc : c.Legal) (v : BitVec 3) : (layoutRow c v).n ≤ 13 :=
  (hc.rows v.toFin).countBound

/-- VAR is kept, or is 0, or is what PM_VERIFY finds; GLEN is kept, or is 0, or is a legal count. -/
theorem exec_keeps_var_and_glen_legal {i : Instr} {s t : State} (hs : s.Inv) (h : exec i s = .next t) :
    t.var ≠ 3#2 ∧ t.glen.toNat ≤ 13 := by
  obtain ⟨hc, hvar, hglen, -, -⟩ := hs
  cases i with
  | pmVerify =>
    rcases unlessBlocked_complete_next h with ⟨-, rfl⟩ | ⟨-, rfl⟩
    · exact ⟨verifyVar_ne_three _ _, hglen⟩
    · exact ⟨hvar, hglen⟩
  | tpWrg k v => rcases execTpWrg_next h with ⟨-, -, rfl⟩ | ⟨-, -, rfl⟩ | ⟨-, rfl⟩ <;> simp [hvar, hglen]
  | tpSetlen n =>
    rcases execTpSetlen_next h with ⟨hn, -, rfl⟩ | ⟨-, -, rfl⟩ | ⟨-, rfl⟩
    · exact ⟨hvar, hn⟩
    · exact ⟨hvar, hglen⟩
    · simp [hvar, hglen]
  | tpPack =>
    rcases execTpPack_next h with ⟨-, rfl⟩ | ⟨-, f, -, rfl⟩ | ⟨-, -, rfl⟩
    · exact ⟨hvar, hglen⟩
    · simp [hvar, hglen]
    · have hn : s.row.n ≤ 13 := layoutRow_count_le hc s.tvar
      exact ⟨hvar, (Nat.mod_le _ _).trans hn⟩
  | tpUnpack => rcases execTpUnpack_next h with ⟨-, rfl⟩ | ⟨-, -, rfl⟩ | ⟨-, -, rfl⟩ <;> simp [hvar, hglen]
  | tpClr =>
    rcases unlessBlocked_complete_next h with ⟨-, rfl⟩ | ⟨-, rfl⟩
    · exact ⟨hvar, by simp⟩
    · exact ⟨hvar, hglen⟩
  | rd c => rcases execRd_next h with ⟨r, -, rfl⟩ | ⟨-, rfl⟩ <;> simp [hvar, hglen]
  | errclr => cases h; exact ⟨hvar, hglen⟩
  | swreset => cases h; exact ⟨by simp [State.reset], by simp [State.reset]⟩
  | _ => rcases unlessBlocked_complete_next h with ⟨-, rfl⟩ | ⟨-, rfl⟩ <;> exact ⟨hvar, hglen⟩

/-- Every command keeps the invariant: blocking and completing by the bounds on VAR and GLEN, a fault because its record
is one of R201 (a field id, the legal GLEN, or one of three opcodes). -/
theorem exec_keeps_inv {i : Instr} {s t : State} (hs : s.Inv) (h : exec i s = .next t) : t.Inv := by
  obtain ⟨hvar, hglen⟩ := exec_keeps_var_and_glen_legal hs h
  have hconfig : t.config.Legal := (exec_keeps_config_and_host h).1 ▸ hs.configLegal
  rcases exec_next_cases h with ⟨e, rfl, -⟩ | ⟨c, n, rfl, hwf, hnot⟩ | ⟨-, hresp, hrecord, -⟩
  · exact ⟨hconfig, hvar, hglen, hs.recordLegal, fun _ => ⟨e, rfl⟩⟩
  · apply hs.raise
    cases hw : i.wf with
    | true =>
      obtain ⟨-, ⟨-, rfl, hn⟩ | ⟨-, rfl, rfl⟩⟩ := hwf hw
      · exact (faultRecordLegal_fieldRange_iff n).2 hn
      · have hinfo : (lengthInfo s.glen).toNat = s.glen.toNat := BitVec.toNat_setWidth_of_le (by omega)
        exact (faultRecordLegal_lenMismatch_iff _).2 (hinfo ▸ hs.glenLegal)
    | false => obtain ⟨rfl, rfl | rfl | rfl⟩ := hnot hw <;> decide
  · refine ⟨hconfig, hvar, hglen, ?_, fun hbit => absurd (hresp.symm.trans hbit) (by decide)⟩
    rcases hrecord with ⟨herr, hinfo⟩ | ⟨herr, hinfo, -⟩
    · rw [herr, hinfo]
      exact hs.recordLegal
    · rw [herr, hinfo]
      decide

theorem runEvent_keeps_inv {e : PortEvent} {s t : State} (hs : s.Inv) (h : runEvent e s = .next t) : t.Inv := by
  cases e with
  | command w =>
    rcases runWord_next h with ⟨i, -, hx⟩ | ⟨d, hd, rfl⟩
    · exact exec_keeps_inv hs hx
    · exact hs.raise (decodeFault_recordLegal hd)
  | reset o =>
    cases h
    exact hs.resetRegisters

/-- Settles O18: the index moves, which no clause of the invariant reads, and the event keeps it. -/
theorem stepKeepsTheInvariant : Obligations.StepKeepsTheInvariant := by
  intro s t hs h
  obtain ⟨e, -, he⟩ := step_next h
  exact runEvent_keeps_inv hs.advance he

end Sys2Proof.Machine

/-! The memory family: atomic commands, the RD selector map, and where each field bit stands in the bitstream
(20_memory.md). -/

/-! ### The word of RD (30_encoding.md R71, R73) -/

namespace Sys2Proof

theorem byteField_append (a : BitVec 24) (c : Byte) : byteField (a ++ c) = c :=
  (BitVec.extractLsb'_append_eq_of_add_le (xhi := a) (xlo := c) (start := 0) (len := 8) (by omega)).trans (by simp)

/-- The reserved bits of an RD word are zero, so the selector alone decides (R76). -/
theorem decode_rd_word (c : Byte) : decode (0x1D#5 ++ 0#19 ++ c) =
    if (Instr.rd c).wf then .ok (.rd c) else .error (.badIndex 0x1D#5) := by
  have hmask : (0x1D#5 ++ 0#19 ++ c) &&& 0xFFFFFF00#32 = 0xE8000000#32 := by revert c; decide
  have hop : opField (0x1D#5 ++ 0#19 ++ c) = 0x1D#5 := opField_of_mask hmask (by decide)
  have hrow : rowOf 0x1D#5 = some ⟨0x1D#5, .b8, 0xE8000000#32, 0xFFFFFF00#32, fun w => .rd (byteField w)⟩ := rfl
  have hsel : byteField (0x1D#5 ++ 0#19 ++ c) = c := byteField_append _ c
  simp only [decode, hop, hrow, hmask, hsel, ne_eq, not_true_eq_false, if_false]

/-! ### The seven fields and their slots (41_txref_packer.md R130, R131) -/

theorem FieldId.mem_all (f : FieldId) : f ∈ FieldId.all := by cases f <;> decide

theorem FieldId.exists_idx_eq (k : Fin 7) : ∃ f : FieldId, f.idx = k := by
  have h : ∀ k : Fin 7, ∃ f ∈ FieldId.all, f.idx = k := by decide
  obtain ⟨f, -, hf⟩ := h k
  exact ⟨f, hf⟩

theorem LayoutRow.slots_eq_map (row : LayoutRow) : row.slots = FieldId.all.map row.slot := rfl

theorem LayoutRow.slot_mem_slots (row : LayoutRow) (f : FieldId) : row.slot f ∈ row.slots :=
  row.slots_eq_map ▸ List.mem_map_of_mem f.mem_all

end Sys2Proof

namespace Sys2Proof.Machine

/-! ### Atomic commands (R59) -/

/-- A fault writes the record and RESP, and the record only when none stood. -/
theorem State.raise_writes_record_and_resp (s : State) (c : FaultCode) (n : BitVec 8) :
    s.raise c n = { s with err := (s.raise c n).err, errInfo := (s.raise c n).errInfo, resp := (s.raise c n).resp } ∧
      (s.err ≠ 0#4 → (s.raise c n).err = s.err ∧ (s.raise c n).errInfo = s.errInfo) := by
  by_cases e : s.err = 0#4
  · rw [s.raise_of_clear c n e]
    exact ⟨rfl, absurd e⟩
  · rw [s.raise_of_pending c n e]
    exact ⟨rfl, fun _ => ⟨rfl, rfl⟩⟩

/-- An error word answers only a blocked command or a fault. -/
theorem runWord_next_of_error_word {w : Word} {s t : State} (h : runWord w s = .next t)
    (hresp : t.resp.getLsbD 31 = true) : t = s.blocked ∨ ∃ c n, t = s.raise c n := by
  rcases runWord_next h with ⟨i, -, hx⟩ | ⟨d, -, rfl⟩
  · rcases exec_next_cases hx with ⟨-, rfl, -⟩ | ⟨c, n, rfl, -⟩ | ⟨-, hclear, -⟩
    · exact .inl rfl
    · exact .inr ⟨c, n, rfl⟩
    · exact absurd (hresp.symm.trans hclear) (by decide)
  · exact .inr ⟨_, _, rfl⟩

/-- Settles O14: a blocked command writes RESP alone and a fault the record and RESP; TP_PACK and TP_UNPACK write either
nothing of the register files or all that their completion writes. -/
theorem commandsAreAtomic : Obligations.CommandsAreAtomic := by
  refine ⟨fun w s t h hresp => ?_, fun s t h => ?_, fun s t h => ?_⟩
  · rcases runWord_next_of_error_word h hresp with rfl | ⟨c, n, rfl⟩
    · exact ⟨rfl, fun _ => ⟨rfl, rfl⟩⟩
    · exact s.raise_writes_record_and_resp c n
  · rcases execTpPack_next h with ⟨-, rfl⟩ | ⟨-, f, -, rfl⟩ | ⟨-, -, rfl⟩
    · exact .inr ⟨rfl, rfl⟩
    · exact .inr (by simp)
    · exact .inl ⟨rfl, rfl⟩
  · rcases execTpUnpack_next h with ⟨-, rfl⟩ | ⟨-, -, rfl⟩ | ⟨-, -, rfl⟩
    · exact .inr rfl
    · exact .inr (by simp)
    · exact .inl rfl

/-! ### Reads (R52, R60) -/

/-- The ranges of the selector map (R52). -/
theorem rd_wf_iff : ∀ c : Byte, (Instr.rd c).wf = true ↔
    c.toNat ≤ 2 ∨ (0x08 ≤ c.toNat ∧ c.toNat ≤ 0x0D) ∨ (0x10 ≤ c.toNat ∧ c.toNat ≤ 0x16)
      ∨ (0x20 ≤ c.toNat ∧ c.toNat ≤ 0x2C) := by
  decide

theorem exec_rd_of_mapped {c : Byte} {r : Selector} (h : selectorOf c = some r) (s : State) :
    exec (.rd c) s = .next (s.respond (s.readSelector r)) := by
  simp [exec, execRd, h]

theorem exec_rd_selectorByte (r : Selector) (s : State) :
    exec (.rd (selectorByte r)) s = .next (s.respond (s.readSelector r)) :=
  exec_rd_of_mapped (selectorOf_selectorByte r) s

/-- No selector reads RESP. -/
@[simp] theorem readSelector_respond (s : State) (v : Word) (r : Selector) :
    (s.respond v).readSelector r = s.readSelector r := by
  cases r <;> rfl

/-- Settles O25: `exec_rd_selectorByte` at each line of the map, and `decode_rd_word` inside and outside its ranges. -/
theorem rdReadsTheSelectorMap : Obligations.RdReadsTheSelectorMap := by
  refine ⟨exec_rd_selectorByte .acc, exec_rd_selectorByte .chk, exec_rd_selectorByte .status,
    fun s i => exec_rd_selectorByte (.chkGroup i) s, fun s k => ?_, fun s i => exec_rd_selectorByte (.group i) s,
    fun c hc => ?_, fun c s hc => ?_⟩
  · obtain ⟨f, rfl⟩ := FieldId.exists_idx_eq k
    exact exec_rd_selectorByte (.field f) s
  · rw [decode_rd_word, if_pos ((rd_wf_iff c).2 hc)]
  · have hd : decode (0x1D#5 ++ 0#19 ++ c) = .error (.badIndex 0x1D#5) := by
      rw [decode_rd_word, if_neg (mt (rd_wf_iff c).1 hc)]
    exact ⟨hd, runWord_of_decode_error hd s⟩

/-- Settles O26: RD only responds, and its value does not depend on RESP. -/
theorem readsHaveNoSideEffects : Obligations.ReadsHaveNoSideEffects := by
  intro c s hc
  obtain ⟨r, hr⟩ := Option.isSome_iff_exists.1 (hc : (selectorOf c).isSome = true)
  refine ⟨_, exec_rd_of_mapped hr s, rfl, ?_⟩
  rw [exec_rd_of_mapped hr, readSelector_respond]
  rfl

/-! ### The fields of a legal layout row (41_txref_packer.md R133) -/

section LegalRow

variable {ext : Bool} {row : LayoutRow} {f g : FieldId} {p : Nat}

theorem Covers.width_ne_zero (hf : Covers row f p) : (row.slot f).width ≠ 0 := by omega

/-- A field that covers a position is present, so it ends within the N groups (R133 d). -/
theorem Covers.lt_of_legal (hf : Covers row f p) (hrow : row.Legal ext) : p < 5 * row.n := by
  have hpresent : row.slot f ∈ row.present :=
    List.mem_filter.2 ⟨row.slot_mem_slots f, by simpa using hf.width_ne_zero⟩
  exact hf.2.trans_le (hrow.fits _ hpresent)

/-- No two fields cover one position (R133 c). -/
theorem Covers.unique_of_legal (hf : Covers row f p) (hg : Covers row g p) (hrow : row.Legal ext) : f = g := by
  have hordered := hrow.ordered
  rw [LayoutRow.present, List.pairwise_filter, LayoutRow.slots_eq_map, List.pairwise_map] at hordered
  have hdisjoint : FieldId.all.Pairwise fun a b => ¬ (Covers row a p ∧ Covers row b p) := by
    refine hordered.imp fun {a b} hab ⟨ha, hb⟩ => ?_
    have hends := hab (by simpa using ha.width_ne_zero) (by simpa using hb.width_ne_zero)
    omega
  have : Std.Symm fun a b => ¬ (Covers row a p ∧ Covers row b p) := ⟨fun _ _ hab hba => hab hba.symm⟩
  by_contra hne
  exact hdisjoint.forall f.mem_all g.mem_all hne ⟨hf, hg⟩

end LegalRow

/-! ### Packing and unpacking, bit by bit (R54, R55) -/

theorem depositedBit_eq (row : LayoutRow) (F : Vector FieldWord 7) (f : FieldId) (p : Nat) :
    depositedBit row F f p = (decide (Covers row f p) && F[f.idx].getLsbD (p - (row.slot f).off)) := by
  have hcovers : Covers row f p ↔ (row.slot f).off ≤ p ∧ p - (row.slot f).off < (row.slot f).width := by omega
  simp [depositedBit, hcovers, Bool.and_assoc]

/-- A position that no field but RSV covers stays 0. -/
theorem depositFields_testBit_of_uncovered {row : LayoutRow} {p : Nat} (F : Vector FieldWord 7)
    (h : ∀ f : FieldId, f ≠ .rsv → ¬ Covers row f p) : (depositFields row F).testBit p = false := by
  rw [depositFields_testBit, List.any_eq_false]
  intro f hf
  have hf : f ≠ .rsv := by simpa using (List.mem_filter.1 hf).2
  simp [depositedBit_eq, h f hf]

/-- A position that one field covers, and it is not RSV, holds that field's bit. -/
theorem depositFields_testBit_of_covered {ext : Bool} {row : LayoutRow} {f : FieldId} {p : Nat} (F : Vector FieldWord 7)
    (hrow : row.Legal ext) (hne : f ≠ .rsv) (hf : Covers row f p) :
    (depositFields row F).testBit p = F[f.idx].getLsbD (p - (row.slot f).off) := by
  have hown : depositedBit row F f p = F[f.idx].getLsbD (p - (row.slot f).off) := by simp [depositedBit_eq, hf]
  rw [depositFields_testBit, ← hown, Bool.eq_iff_iff, List.any_eq_true]
  constructor
  · rintro ⟨g, -, hg⟩
    have hgp : Covers row g p := by
      rw [depositedBit_eq, Bool.and_eq_true_iff] at hg
      exact of_decide_eq_true hg.1
    rwa [hf.unique_of_legal hgp hrow]
  · exact fun h => ⟨f, List.mem_filter.2 ⟨f.mem_all, by simpa using hne⟩, h⟩

/-- Settles O54: each position of the groups is one of the deposited bitstream, and a covered one lies below 5N. -/
theorem packPlacesEveryFieldBit : Obligations.PackPlacesEveryFieldBit := by
  intro ext row F hrow
  refine ⟨fun f k hne hk i b hp => ?_, fun i b h => ?_⟩
  · have hf : Covers row f (5 * i.val + b.val) := by omega
    have hi : i.val < row.n := by have := hf.lt_of_legal hrow; omega
    rw [packGroups_getLsbD row F i b b.isLt, depositFields_testBit_of_covered F hrow hne hf, hp,
      Nat.add_sub_cancel_left]
    simp [hi]
  · rw [packGroups_getLsbD row F i b b.isLt, depositFields_testBit_of_uncovered F h, Bool.and_false]

/-- Settles O55: a bit of an unpacked field is one of the bitstream of the groups, and a position of a field lies below
5N. -/
theorem unpackReadsEveryFieldBit : Obligations.UnpackReadsEveryFieldBit := by
  intro ext row g hrow f k
  rw [unpackFields_get, BitVec.getLsbD_ofNat, extractField_testBit]
  refine ⟨fun hk i b hp => ?_, fun hk => by simp [Nat.not_lt.2 hk]⟩
  have hwidth : (row.slot f).width ≤ 27 := hrow.widthBound _ (row.slot_mem_slots f)
  have hlt : 5 * i.val + b.val < 5 * row.n := Covers.lt_of_legal (f := f) (by omega) hrow
  rw [groupBits_testBit, ← hp, show (5 * i.val + b.val) / 5 = i.val by omega,
    show (5 * i.val + b.val) % 5 = b.val by omega]
  simp [hk, hlt, show k < 27 by omega]

end Sys2Proof.Machine

/-! The encoding family: the rows of the opcode map and the words of each, what a word that fails decode does, and the
assembler (30_encoding.md). -/

namespace Sys2Proof

open Machine

/-! ### The row of a word (R73) -/

/-- No two rows share an opcode. -/
theorem row_eq_of_op_eq {r q : OpRow} (hr : r ∈ opcodeTable) (hq : q ∈ opcodeTable) (h : r.op = q.op) : r = q :=
  List.inj_on_of_nodup_map (f := OpRow.op) (by decide) hr hq h

theorem rowOf_op {r : OpRow} (hr : r ∈ opcodeTable) : rowOf r.op = some r := by
  obtain ⟨q, hq⟩ : ∃ q, rowOf r.op = some q :=
    Option.isSome_iff_exists.1 (List.find?_isSome.2 ⟨r, hr, beq_self_eq_true r.op⟩)
  obtain ⟨hmem, hop⟩ := rowOf_eq_some hq
  rw [hq, row_eq_of_op_eq hmem hr hop]

theorem mask_eq_not_operandBits {r : OpRow} (hr : r ∈ opcodeTable) : r.mask = ~~~ r.format.operandBits := by
  revert r
  decide

/-- A word with the fixed bits of a row has the row's opcode. -/
theorem opField_of_match {r : OpRow} (hr : r ∈ opcodeTable) {w : Word} (hm : w &&& r.mask = r.fixed) :
    opField w = r.op := by
  have hrows : ∀ r ∈ opcodeTable, opField r.mask = 0x1F#5 ∧ opField r.fixed = r.op := by decide
  obtain ⟨hmask, hfixed⟩ := hrows r hr
  exact (opField_of_mask hm hmask).trans hfixed

/-- On a word with the fixed bits of a row the index check alone decides (R73, R76). -/
theorem decode_of_match {r : OpRow} (hr : r ∈ opcodeTable) {w : Word} (hm : w &&& r.mask = r.fixed) :
    decode w = if (r.build w).wf then .ok (r.build w) else .error (.badIndex r.op) := by
  have hop := opField_of_match hr hm
  simp [decode, hop, rowOf_op hr, hm]

/-! ### Reading back the operands of an encoded command (R71) -/

/-- The mask of a format with one operand keeps what stands above it. -/
theorem append_and_highMask {m n : Nat} (hi : BitVec m) (lo : BitVec n) :
    (hi ++ lo) &&& (BitVec.allOnes m ++ 0#n) = hi ++ 0#n := by
  rw [BitVec.and_append, BitVec.and_allOnes, BitVec.and_zero]

/-- The mask of format GV keeps what stands outside its two operands. -/
theorem append_and_groupMask (hi : BitVec 20) (k : BitVec 4) (v : Symbol) :
    (hi ++ k ++ 0#3 ++ v) &&& (BitVec.allOnes 20 ++ 0#4 ++ BitVec.allOnes 3 ++ 0#5) = hi ++ 0#4 ++ 0#3 ++ 0#5 := by
  rw [BitVec.and_append, BitVec.and_append, append_and_highMask, BitVec.and_allOnes, BitVec.and_zero]

theorem indexField_append (hi : BitVec 20) (k : BitVec 4) (v : Symbol) : indexField (hi ++ k ++ 0#3 ++ v) = k :=
  calc (hi ++ k ++ 0#3 ++ v).extractLsb' 8 4
    _ = (hi ++ k ++ 0#3).extractLsb' 3 4 := BitVec.extractLsb'_append_eq_of_le (by decide)
    _ = (hi ++ k).extractLsb' 0 4 := BitVec.extractLsb'_append_eq_of_le (by decide)
    _ = k := BitVec.extractLsb'_append_eq_right

theorem symbolField_append (hi : BitVec 27) (v : Symbol) : symbolField (hi ++ v) = v :=
  BitVec.extractLsb'_append_eq_right

theorem variantField_append (hi : BitVec 29) (v : BitVec 3) : variantField (hi ++ v) = v :=
  BitVec.extractLsb'_append_eq_right

theorem countField_append (hi : BitVec 28) (n : BitVec 4) : countField (hi ++ n) = n :=
  BitVec.extractLsb'_append_eq_right

/-- Each command is encoded with the fixed bits of one row, and that row reads the command back. -/
theorem exists_row_of_encode (i : Instr) :
    ∃ r ∈ opcodeTable, encode i &&& r.mask = r.fixed ∧ r.build (encode i) = i := by
  cases i with
  | nop => exact ⟨opcodeTable[0], List.getElem_mem _, rfl, rfl⟩
  | pmInit => exact ⟨opcodeTable[1], List.getElem_mem _, rfl, rfl⟩
  | pmStep v =>
    exact ⟨opcodeTable[2], List.getElem_mem _, append_and_highMask _ v, congrArg Instr.pmStep (symbolField_append _ v)⟩
  | pmHrph c =>
    exact ⟨opcodeTable[3], List.getElem_mem _, append_and_highMask _ c, congrArg Instr.pmHrph (byteField_append _ c)⟩
  | pmHrpl c =>
    exact ⟨opcodeTable[4], List.getElem_mem _, append_and_highMask _ c, congrArg Instr.pmHrpl (byteField_append _ c)⟩
  | pmPad6 => exact ⟨opcodeTable[5], List.getElem_mem _, rfl, rfl⟩
  | pmCsum t => cases t <;> exact ⟨opcodeTable[6], List.getElem_mem _, rfl, rfl⟩
  | pmVerify => exact ⟨opcodeTable[7], List.getElem_mem _, rfl, rfl⟩
  | tpSetvar v =>
    exact ⟨opcodeTable[8], List.getElem_mem _, append_and_highMask _ v,
      congrArg Instr.tpSetvar (variantField_append _ v)⟩
  | tpWrmagic imm =>
    exact ⟨opcodeTable[9], List.getElem_mem _, append_and_highMask _ imm,
      congrArg Instr.tpWrmagic (immField_append _ imm)⟩
  | tpWrflag imm =>
    exact ⟨opcodeTable[10], List.getElem_mem _, append_and_highMask _ imm,
      congrArg Instr.tpWrflag (immField_append _ imm)⟩
  | tpWrextv imm =>
    exact ⟨opcodeTable[11], List.getElem_mem _, append_and_highMask _ imm,
      congrArg Instr.tpWrextv (immField_append _ imm)⟩
  | tpWrhgt imm =>
    exact ⟨opcodeTable[12], List.getElem_mem _, append_and_highMask _ imm,
      congrArg Instr.tpWrhgt (immField_append _ imm)⟩
  | tpWrpos imm =>
    exact ⟨opcodeTable[13], List.getElem_mem _, append_and_highMask _ imm,
      congrArg Instr.tpWrpos (immField_append _ imm)⟩
  | tpWrtxo imm =>
    exact ⟨opcodeTable[14], List.getElem_mem _, append_and_highMask _ imm,
      congrArg Instr.tpWrtxo (immField_append _ imm)⟩
  | tpWrrsv imm =>
    exact ⟨opcodeTable[15], List.getElem_mem _, append_and_highMask _ imm,
      congrArg Instr.tpWrrsv (immField_append _ imm)⟩
  | tpWrg k v =>
    exact ⟨opcodeTable[16], List.getElem_mem _, append_and_groupMask _ k v,
      congrArg₂ Instr.tpWrg (indexField_append _ k v) (symbolField_append _ v)⟩
  | tpSetlen n =>
    exact ⟨opcodeTable[17], List.getElem_mem _, append_and_highMask _ n,
      congrArg Instr.tpSetlen (countField_append _ n)⟩
  | tpPack => exact ⟨opcodeTable[18], List.getElem_mem _, rfl, rfl⟩
  | tpUnpack => exact ⟨opcodeTable[19], List.getElem_mem _, rfl, rfl⟩
  | tpClr => exact ⟨opcodeTable[20], List.getElem_mem _, rfl, rfl⟩
  | rd c =>
    exact ⟨opcodeTable[21], List.getElem_mem _, append_and_highMask _ c, congrArg Instr.rd (byteField_append _ c)⟩
  | errclr => exact ⟨opcodeTable[22], List.getElem_mem _, rfl, rfl⟩
  | swreset => exact ⟨opcodeTable[23], List.getElem_mem _, rfl, rfl⟩

/-- An encoded command passes the opcode check and the reserved-bit check, so the index check alone decides. -/
theorem decode_encode (i : Instr) :
    decode (encode i) = if i.wf then .ok i else .error (.badIndex (opField (encode i))) := by
  obtain ⟨r, hr, hm, hbuild⟩ := exists_row_of_encode i
  rw [decode_of_match hr hm, hbuild, opField_of_match hr hm]

/-- Settles O3, from `decode_encode`. -/
theorem decodeOfEncodeIsTheCommand : Obligations.DecodeOfEncodeIsTheCommand := by
  intro i hwf
  rw [decode_encode, if_pos hwf]

theorem targetOfBit_selectField (w : Word) :
    targetOfBit (selectField w) = if w.getLsbD 0 then .modern else .original := by
  have hbit : selectField w = 1#1 ↔ w.getLsbD 0 = true := by
    simp [selectField, BitVec.eq_of_getLsbD_eq_iff]
  simp only [targetOfBit, hbit]

/-- Settles O2: the rows by evaluation, their commands as the fields are defined, and `decode_of_match`. -/
theorem opcodeMapDecides : Obligations.OpcodeMapDecides := by
  refine ⟨rfl, fun r hr => mask_eq_not_operandBits hr, fun w => ?_, fun w r hr hm hwf => ?_⟩
  · rw [← targetOfBit_selectField]
    rfl
  · rw [decode_of_match hr hm, if_pos hwf]

/-! ### The word of a decoded command (R78) -/

theorem targetBit_targetOfBit : ∀ s : BitVec 1, targetBit (targetOfBit s) = s := by decide

/-- The bits that a mask holds are those of the match. -/
theorem extractLsb'_of_match {k s n : Nat} {w mask fixed : BitVec k} (h : w &&& mask = fixed)
    (hmask : mask.extractLsb' s n = BitVec.allOnes n) : w.extractLsb' s n = fixed.extractLsb' s n := by
  rw [← h, BitVec.extractLsb'_and, hmask, BitVec.and_allOnes]

/-- A word with no operand is the match. -/
theorem fixed_of_match {w fixed : Word} (h : w &&& 0xFFFFFFFF#32 = fixed) : fixed = w :=
  h.symm.trans BitVec.and_allOnes

/-- A word with one operand is the match above the operand and the operand. -/
theorem append_low_of_match {m n : Nat} {w : BitVec (m + n)} {hi : BitVec m}
    (h : w &&& (BitVec.allOnes m ++ 0#n) = hi ++ 0#n) : hi ++ w.extractLsb' 0 n = w := by
  have hhi := extractLsb'_of_match h BitVec.extractLsb'_append_eq_left
  rw [BitVec.extractLsb'_append_eq_left] at hhi
  rw [← hhi, BitVec.extractLsb'_append_extractLsb']

/-- A word of format GV is the match above the index, the index, three zeros and the symbol. -/
theorem append_group_of_match {w : Word} {hi : BitVec 20}
    (h : w &&& (BitVec.allOnes 20 ++ 0#4 ++ BitVec.allOnes 3 ++ 0#5) = hi ++ 0#4 ++ 0#3 ++ 0#5) :
    hi ++ indexField w ++ 0#3 ++ symbolField w = w := by
  have hhi : w.extractLsb' 12 20 = hi := by
    rw [extractLsb'_of_match h (by decide), BitVec.extractLsb'_append_eq_of_le (by decide),
      BitVec.extractLsb'_append_eq_of_le (by decide), BitVec.extractLsb'_append_eq_left]
  have hgap : w.extractLsb' 5 3 = 0#3 := by
    rw [extractLsb'_of_match h (by decide), BitVec.extractLsb'_append_eq_of_le (by decide),
      BitVec.extractLsb'_append_eq_right]
  calc hi ++ indexField w ++ 0#3 ++ symbolField w
    _ = w.extractLsb' 12 20 ++ w.extractLsb' 8 4 ++ w.extractLsb' 5 3 ++ w.extractLsb' 0 5 := by
      rw [hhi, hgap]; rfl
    _ = w := by
      rw [BitVec.extractLsb'_append_extractLsb'_eq_extractLsb' (by decide),
        BitVec.extractLsb'_append_extractLsb'_eq_extractLsb' (by decide),
        BitVec.extractLsb'_append_extractLsb'_eq_extractLsb' (by decide), BitVec.extractLsb'_eq_self]

/-- The target that PM_CSUM reads from its word is encoded as the same bit. -/
theorem append_select_of_match {w : Word} {hi : BitVec 31} (h : w &&& 0xFFFFFFFE#32 = hi ++ 0#1) :
    hi ++ targetBit (targetOfBit (selectField w)) = w := by
  rw [targetBit_targetOfBit]
  exact append_low_of_match h

/-- Encoding what a row reads from one of its words gives the word back. -/
theorem encode_build : ∀ r ∈ opcodeTable, ∀ w : Word, w &&& r.mask = r.fixed → encode (r.build w) = w := by
  simp only [opcodeTable, polymodRows, packerRows, controlRows, List.cons_append, List.nil_append,
    List.forall_mem_cons]
  exact ⟨
    -- 0x00 to 0x07
    fun _ h => fixed_of_match h, fun _ h => fixed_of_match h, fun _ h => append_low_of_match h,
    fun _ h => append_low_of_match h, fun _ h => append_low_of_match h, fun _ h => fixed_of_match h,
    fun _ h => append_select_of_match h, fun _ h => fixed_of_match h,
    -- 0x10 to 0x17
    fun _ h => append_low_of_match h, fun _ h => append_low_of_match h, fun _ h => append_low_of_match h,
    fun _ h => append_low_of_match h, fun _ h => append_low_of_match h, fun _ h => append_low_of_match h,
    fun _ h => append_low_of_match h, fun _ h => append_low_of_match h,
    -- 0x18 to 0x1F
    fun _ h => append_group_of_match h, fun _ h => append_low_of_match h, fun _ h => fixed_of_match h,
    fun _ h => fixed_of_match h, fun _ h => fixed_of_match h, fun _ h => append_low_of_match h,
    fun _ h => fixed_of_match h, fun _ h => fixed_of_match h, List.forall_mem_nil _⟩

/-- Settles O4: a decoded word has the match of its row, so `encode_build` gives it back. -/
theorem decodedWordIsTheEncoding : Obligations.DecodedWordIsTheEncoding := by
  intro w i h
  obtain ⟨r, hr, hm, rfl, hwf⟩ := decode_ok h
  exact ⟨hwf, encode_build r (rowOf_eq_some hr).1 w hm⟩

end Sys2Proof

namespace Sys2Proof.Machine

/-! ### The fault of a word that fails decode (R74 to R77) -/

/-- A decode fault recorded with its opcode, with no fault pending: the response is the error word, its code and its
opcode apart. -/
theorem State.raise_opcode_of_clear (s : State) (c : FaultCode) (op : BitVec 5) (h : s.err = 0#4) :
    s.raise c (op.setWidth 8) = { s with
      err := c.number, errInfo := op.setWidth 8,
      resp := (0x80000000#32 ||| c.number.setWidth 32) ||| (op.setWidth 32 <<< 8) } := by
  rw [s.raise_of_clear c _ h, errorWord, BitVec.setWidth_setWidth (by decide), BitVec.or_assoc,
    BitVec.or_comm (op.setWidth 32 <<< 8), ← BitVec.or_assoc]

/-- Settles O5: a reserved opcode has no row. -/
theorem reservedOpcodeFaults : Obligations.ReservedOpcodeFaults := by
  intro w hlo hhi
  have hrow : rowOf (opField w) = none := Option.isNone_iff_eq_none.1 ((rowOf_isNone_iff _).2 ⟨hlo, hhi⟩)
  have hd : decode w = .error (.illegalOp (opField w)) := by simp [decode, hrow]
  exact ⟨hd, fun s hs => (runWord_of_decode_error hd s).trans (congrArg _ (s.raise_opcode_of_clear .illegalOp _ hs))⟩

/-- A word with a nonzero reserved bit is none of its row's words: a match has only opcode bits. -/
theorem and_mask_ne_fixed_of_reserved {r : OpRow} (hr : r ∈ opcodeTable) {w : Word}
    (h : w &&& 0x07FFFFFF#32 &&& ~~~ r.format.operandBits ≠ 0#32) : w &&& r.mask ≠ r.fixed := by
  intro hm
  have hfixed : ∀ r ∈ opcodeTable, r.fixed &&& 0x07FFFFFF#32 = 0#32 := by decide
  apply h
  calc w &&& 0x07FFFFFF#32 &&& ~~~ r.format.operandBits
    _ = w &&& r.mask &&& 0x07FFFFFF#32 := by
      rw [mask_eq_not_operandBits hr, BitVec.and_assoc, BitVec.and_comm 0x07FFFFFF#32, ← BitVec.and_assoc]
    _ = 0#32 := by rw [hm, hfixed r hr]

/-- Settles O6: the reserved-bit check of the opcode's row fails. -/
theorem reservedBitsFault : Obligations.ReservedBitsFault := by
  intro r hr w hop hbits
  have hd : decode w = .error (.rsvdBits r.op) := by
    have hop : opField w = r.op := hop
    simp [decode, hop, rowOf_op hr, and_mask_ne_fixed_of_reserved hr hbits]
  exact ⟨hd, fun s hs => (runWord_of_decode_error hd s).trans (congrArg _ (s.raise_opcode_of_clear .rsvdBits _ hs))⟩

/-! ### The index checks (R76) -/

theorem tpWrg_wf_eq_false_iff (k : BitVec 4) (v : Symbol) : (Instr.tpWrg k v).wf = false ↔ 12 < k.toNat := by
  simp [Instr.wf, groupIndexLegal]

theorem tpSetlen_wf_eq_false_iff (n : BitVec 4) : (Instr.tpSetlen n).wf = false ↔ 13 < n.toNat := by
  simp [Instr.wf, groupCountLegal]

theorem opField_encode_tpWrg (k : BitVec 4) (v : Symbol) : opField (encode (.tpWrg k v)) = 0x18#5 :=
  opField_of_match (r := opcodeTable[16]) (List.getElem_mem _) (append_and_groupMask _ k v)

theorem opField_encode_tpSetlen (n : BitVec 4) : opField (encode (.tpSetlen n)) = 0x19#5 :=
  opField_of_match (r := opcodeTable[17]) (List.getElem_mem _) (append_and_highMask _ n)

theorem opField_encode_rd (c : Byte) : opField (encode (.rd c)) = 0x1D#5 :=
  opField_of_match (r := opcodeTable[21]) (List.getElem_mem _) (append_and_highMask _ c)

theorem decode_encode_of_not_wf {i : Instr} (h : i.wf = false) :
    decode (encode i) = .error (.badIndex (opField (encode i))) := by
  simp [decode_encode, h]

/-- Which row a word is of, and which of its operands is out of range, when the index check refuses it (R76). -/
theorem index_of_build_not_wf {w : Word} {r : OpRow} (hr : r ∈ opcodeTable) (hw : (r.build w).wf = false) :
    (r.op = 0x1D#5 ∧ (Instr.rd (byteField w)).wf = false) ∨ (r.op = 0x18#5 ∧ 12 < (indexField w).toNat)
      ∨ (r.op = 0x19#5 ∧ 13 < (countField w).toNat) := by
  rcases opcode_of_build_not_wf hr hw with hop | hop | hop
  · have hrow := row_eq_of_op_eq (q := opcodeTable[16]) hr (List.getElem_mem _) hop
    subst hrow
    exact .inr (.inl ⟨hop, (tpWrg_wf_eq_false_iff _ _).1 hw⟩)
  · have hrow := row_eq_of_op_eq (q := opcodeTable[17]) hr (List.getElem_mem _) hop
    subst hrow
    exact .inr (.inr ⟨hop, (tpSetlen_wf_eq_false_iff _).1 hw⟩)
  · have hrow := row_eq_of_op_eq (q := opcodeTable[21]) hr (List.getElem_mem _) hop
    subst hrow
    exact .inl ⟨hop, hw⟩

/-- Settles O7: the encodings of the three commands outside their index spaces, `index_of_build_not_wf` for the
converse, and the record of a decode fault. -/
theorem indexOutsideItsSpaceFaults : Obligations.IndexOutsideItsSpaceFaults := by
  refine ⟨fun c => ?_, fun k v hk => ?_, fun n hn => ?_, fun w op hd => ?_, fun w op s hd hs => ?_⟩
  · refine or_iff_not_imp_left.2 fun hc => ?_
    rw [decode_rd_word, if_neg (mt (rd_wf_iff c).1 hc)]
  · have hd := decode_encode_of_not_wf ((tpWrg_wf_eq_false_iff k v).2 hk)
    rwa [opField_encode_tpWrg] at hd
  · have hd := decode_encode_of_not_wf ((tpSetlen_wf_eq_false_iff n).2 hn)
    rwa [opField_encode_tpSetlen] at hd
  · rcases decode_error hd with ⟨he, -⟩ | ⟨r, -, -, he⟩ | ⟨r, hr, -, hw, he⟩
    · cases he
    · cases he
    · cases he
      obtain ⟨hmem, hop⟩ := rowOf_eq_some hr
      refine ⟨rfl, ?_⟩
      rw [← hop]
      exact (index_of_build_not_wf hmem hw).imp_left fun ⟨hrd, hsel⟩ =>
        ⟨hrd, mt (rd_wf_iff _).2 (Bool.eq_false_iff.1 hsel)⟩
  · exact (runWord_of_decode_error hd s).trans (congrArg _ (s.raise_opcode_of_clear .badIndex _ hs))

/-! ### Words that fail decode, and commands that no word decodes to (log 8) -/

/-- A command outside its index space takes BAD_INDEX with its opcode. -/
theorem exec_of_not_wf {i : Instr} (h : i.wf = false) (s : State) :
    exec i s = .next (s.raise .badIndex ((opField (encode i)).setWidth 8)) := by
  cases i with
  | tpWrg k v =>
    have hk : ¬ k.toNat < 13 := by have := (tpWrg_wf_eq_false_iff k v).1 h; omega
    rw [opField_encode_tpWrg]
    exact dif_neg hk
  | tpSetlen n =>
    have hn : ¬ groupCountLegal n = true := Bool.eq_false_iff.1 h
    rw [opField_encode_tpSetlen]
    exact if_neg hn
  | rd c =>
    have hc : selectorOf c = none := Option.isNone_iff_eq_none.1 (Option.isSome_eq_false_iff.1 h)
    rw [opField_encode_rd]
    simp [exec, execRd, hc]
  | _ => cases h

/-- Settles O8: a pending fault stands when a decode fault is taken, and `exec_of_not_wf`. -/
theorem undecodedWordWhilePendingKeepsTheRecord : Obligations.UndecodedWordWhilePendingKeepsTheRecord := by
  refine ⟨fun w s hs hd => ?_, fun i s h => exec_of_not_wf h s⟩
  cases hw : decode w with
  | ok i => exact absurd hw (hd i)
  | error d => exact (runWord_of_decode_error hw s).trans (congrArg _ (s.raise_of_pending _ _ hs))

/-- Settles O1: the eight lines by evaluation, and the fault of the word that does not decode. -/
theorem workedEncodingsAssembleAndDecode : Obligations.WorkedEncodingsAssembleAndDecode := by
  have hd : decode 0xC800000E#32 = .error (.badIndex 0x19#5) := by decide
  refine ⟨by decide, by decide, by decide, by decide, by decide, by decide, by decide, by decide, hd, fun s hs => ?_⟩
  exact (runWord_of_decode_error hd s).trans (congrArg _ (s.raise_of_clear _ _ hs))

/-! ### The assembler (R80, R81) -/

/-- The commands that a line stands for, where it is not refused, are well-formed. -/
def EmitsWf (o : Option (List Instr)) : Prop := ∀ is ∈ o, ∀ i ∈ is, i.wf = true

section EmitsWf

variable {α : Type} {o : Option α}

theorem emitsWf_none : EmitsWf none := nofun

theorem emitsWf_some {is : List Instr} (h : ∀ i ∈ is, i.wf = true) : EmitsWf (some is) :=
  fun _ he => Option.mem_some.1 he ▸ h

theorem emitsWf_bind {f : α → Option (List Instr)} (h : ∀ a ∈ o, EmitsWf (f a)) : EmitsWf (o.bind f) := by
  intro is his
  obtain ⟨a, ha, hf⟩ := Option.mem_bind_iff.1 his
  exact h a ha is hf

theorem emitsWf_map {f : α → List Instr} (h : ∀ a ∈ o, ∀ i ∈ f a, i.wf = true) : EmitsWf (o.map f) := by
  intro is his
  obtain ⟨a, ha, rfl⟩ := Option.mem_map.1 his
  exact h a ha

theorem emitsWf_one {i : Instr} (h : i.wf = true) : EmitsWf (some [i]) :=
  emitsWf_some (List.forall_mem_singleton.2 h)

theorem emitsWf_map_one {f : α → Instr} (h : ∀ a ∈ o, (f a).wf = true) : EmitsWf (o.map fun a => [f a]) :=
  emitsWf_map fun a ha => List.forall_mem_singleton.2 (h a ha)

end EmitsWf

theorem pmTag_wf (tag : List Byte) : ∀ i ∈ pmTag tag, i.wf = true := by
  simp [pmTag, Instr.wf, or_imp, forall_and]

theorem pmData_wf (vs : List Symbol) : ∀ i ∈ pmData vs, i.wf = true :=
  List.forall_mem_map.2 fun _ _ => rfl

theorem pmCreate_wf (t : Target) (tag : List Byte) (vs : List Symbol) : ∀ i ∈ pmCreate t tag vs, i.wf = true := by
  simp only [pmCreate, List.forall_mem_append]
  exact ⟨⟨⟨by decide, pmTag_wf tag⟩, pmData_wf vs⟩, by cases t <;> decide⟩

theorem pmCheck_wf (tag : List Byte) (vs : List Symbol) : ∀ i ∈ pmCheck tag vs, i.wf = true := by
  simp only [pmCheck, List.forall_mem_append]
  exact ⟨⟨⟨by decide, pmTag_wf tag⟩, pmData_wf vs⟩, by decide⟩

/-- Up to 13 groups, each index is at most 12 and the count at most 13. -/
theorem tpWrgs_wf {vs : List Symbol} (h : vs.length ≤ 13) : ∀ i ∈ tpWrgs vs, i.wf = true := by
  refine List.forall_mem_append.2 ⟨List.forall_mem_map.2 fun ⟨v, k⟩ hk => ?_, List.forall_mem_singleton.2 ?_⟩
  · have hlt : k < vs.length := List.snd_lt_of_mem_zipIdx hk
    rw [Instr.wf, groupIndexLegal_iff, BitVec.toNat_ofNat]
    omega
  · rw [Instr.wf, groupCountLegal_iff, BitVec.toNat_ofNat]
    omega

theorem tpFields_wf (m fl e h p t r : FieldWord) : ∀ i ∈ tpFields m fl e h p t r, i.wf = true := by
  simp [tpFields, Instr.wf]

theorem symbols_length {ops : List AsmOperand} {vs : List Symbol} (h : symbols ops = some vs) :
    vs.length = ops.length := by
  induction ops generalizing vs with
  | nil =>
    cases h
    rfl
  | cons o os ih =>
    rw [symbols, List.mapM_cons] at h
    obtain ⟨v, -, h⟩ := Option.bind_eq_some_iff.1 h
    obtain ⟨ws, hws, h⟩ := Option.bind_eq_some_iff.1 h
    cases h
    rw [List.length_cons, List.length_cons, ih hws]

/-- The selector of an assembled `rd` is mapped: a number is looked up, and a name stands for a selector. -/
theorem selectorOperand_mapped {o : AsmOperand} {c : Byte} (h : c ∈ selectorOperand o) : (selectorOf c).isSome := by
  cases o with
  | num n => exact (Option.mem_filter_iff.1 h).2
  | name s =>
    obtain ⟨p, -, rfl⟩ := Option.mem_map.1 h
    rw [selectorOf_selectorByte]
    rfl
  | str bytes => cases h

/-- Of the commands a line can stand for, only TP_WRG, TP_SETLEN, RD and `tp.wrgs` have indices, and the assembler checks
them as R76 does. -/
theorem assembleOps_wf (m : String) (ops : List AsmOperand) : EmitsWf (assembleOps m ops) := by
  unfold assembleOps
  split
  case h_10 l n s => exact emitsWf_bind fun l _ => emitsWf_bind fun n _ => emitsWf_bind fun s _ => emitsWf_one rfl
  case h_18 i v => exact emitsWf_bind fun i hi => emitsWf_bind fun v _ => emitsWf_one (Option.mem_filter_iff.1 hi).2
  case h_19 n => exact emitsWf_map_one fun n hn => (Option.mem_filter_iff.1 hn).2
  case h_23 o => exact emitsWf_map_one fun c hc => selectorOperand_mapped hc
  case h_26 tag => exact emitsWf_some (pmTag_wf tag)
  case h_27 v vs => exact emitsWf_map fun vs _ => pmData_wf vs
  case h_28 t tag vs => exact emitsWf_bind fun t _ => emitsWf_bind fun vs _ => emitsWf_some (pmCreate_wf t tag vs)
  case h_29 tag vs => exact emitsWf_map fun vs _ => pmCheck_wf tag vs
  case h_30 v vs =>
    split
    next hlen =>
      refine emitsWf_map fun ws hws => tpWrgs_wf ?_
      rw [symbols_length hws, List.length_cons]
      exact hlen
    next => exact emitsWf_none
  case h_31 =>
    refine emitsWf_bind fun xs _ => ?_
    split
    · exact emitsWf_some (tpFields_wf _ _ _ _ _ _ _)
    · exact emitsWf_none
  case h_32 => exact emitsWf_none
  case h_1 | h_2 | h_6 | h_8 | h_20 | h_21 | h_22 | h_24 | h_25 => exact emitsWf_one rfl
  case h_3 | h_4 | h_5 | h_7 | h_9 | h_11 | h_12 | h_13 | h_14 | h_15 | h_16 | h_17 =>
    exact emitsWf_map_one fun _ _ => rfl

theorem assembleLine_wf (line : String) : EmitsWf (assembleLine line) := by
  unfold assembleLine
  split
  · exact emitsWf_bind fun ops _ => assembleOps_wf _ ops
  · exact emitsWf_none

/-- Settles O9: the words are the encodings of well-formed commands, and those decode (O3). -/
theorem assemblerEmitsOnlyDecodableWords : Obligations.AssemblerEmitsOnlyDecodableWords := by
  intro line ws h w hw
  obtain ⟨is, his, rfl⟩ := Option.mem_map.1 h
  obtain ⟨i, hi, rfl⟩ := List.mem_map.1 hw
  exact ⟨i, decodeOfEncodeIsTheCommand i (assembleLine_wf line is his i hi)⟩

end Sys2Proof.Machine

/-! The polymod family: what each command does (40_polymod.md R104 to R110), the source's functions as command sequences
(R111 to R113), and the step as a map over GF(32) (R100, R101, R103). -/

namespace Sys2Proof.Machine

/-! ### One command (R104 to R110) -/

/-- R206: a guarded command behind a pending fault. -/
theorem exec_of_pending {i : Instr} (hwf : i.wf = true) (hu : unblocked i = false) {s : State} (h : s.err ≠ 0#4) :
    exec i s = .next s.blocked := by
  obtain ⟨t, ht⟩ := exec_exists_next i s
  rcases exec_next_cases ht with ⟨-, rfl, -⟩ | ⟨_, _, -, hclear, -⟩ | ⟨hrun, -⟩
  · exact ht
  · exact absurd (hclear hwf).1 h
  · simp [h, hu] at hrun

/-- The state after a completed command that wrote `a` to the accumulator. -/
def State.fedTo (s : State) (a : Acc) : State := { s with acc := a, resp := 0#32 }

@[simp] theorem State.fedTo_acc (s : State) (a : Acc) : (s.fedTo a).acc = a := rfl
@[simp] theorem State.fedTo_err (s : State) (a : Acc) : (s.fedTo a).err = s.err := rfl
@[simp] theorem State.fedTo_config (s : State) (a : Acc) : (s.fedTo a).config = s.config := rfl
@[simp] theorem State.fedTo_fedTo (s : State) (a b : Acc) : (s.fedTo a).fedTo b = s.fedTo b := rfl

theorem tagHigh_eq_div (c : Byte) : tagHigh c = BitVec.ofNat 5 (c.toNat / 32) := by
  apply BitVec.eq_of_toNat_eq
  simp [tagHigh, Nat.shiftRight_eq_div_pow]

theorem tagLow_eq_mod (c : Byte) : tagLow c = BitVec.ofNat 5 (c.toNat % 32) := by
  have hmask : c.toNat &&& 31 = c.toNat % 32 := Nat.and_two_pow_sub_one_eq_mod c.toNat 5
  apply BitVec.eq_of_toNat_eq
  rw [tagLow, BitVec.toNat_setWidth, BitVec.toNat_and, BitVec.toNat_ofNat]
  exact congrArg (· % 32) hmask

section

variable {s : State} (h : s.err = 0#4)
include h

theorem exec_pmInit_of_clear : exec .pmInit s = .next (s.fedTo 1#30) := unlessBlocked_of_clear h _

theorem exec_pmStep_of_clear (v : Symbol) :
    exec (.pmStep v) s = .next (s.fedTo (polymodStep s.config.gen s.acc v)) := unlessBlocked_of_clear h _

theorem exec_pmHrph_of_clear (c : Byte) :
    exec (.pmHrph c) s = .next (s.fedTo (polymodStep s.config.gen s.acc (BitVec.ofNat 5 (c.toNat / 32)))) := by
  rw [← tagHigh_eq_div]
  exact unlessBlocked_of_clear h _

theorem exec_pmHrpl_of_clear (c : Byte) :
    exec (.pmHrpl c) s = .next (s.fedTo (polymodStep s.config.gen s.acc (BitVec.ofNat 5 (c.toNat % 32)))) := by
  rw [← tagLow_eq_mod]
  exact unlessBlocked_of_clear h _

theorem exec_pmPad6_of_clear :
    exec .pmPad6 s = .next (s.fedTo (polymodFrom s.config.gen s.acc (List.replicate 6 0#5))) :=
  unlessBlocked_of_clear h _

theorem exec_pmCsum_of_clear (t : Target) :
    exec (.pmCsum t) s = .next { s with chk := s.acc ^^^ targetValue s.config t, resp := 0#32 } :=
  unlessBlocked_of_clear h _

theorem exec_pmVerify_of_clear :
    exec .pmVerify s = .next { s with var := verifyVar s.config s.acc, resp := 0#32 } := unlessBlocked_of_clear h _

end

/-- Generator i is what an accumulator with bit 25 + i alone leaves (R105). -/
theorem polymodStep_topBit (gen : Vector Acc 5) (i : Fin 5) :
    polymodStep gen (BitVec.ofNat 30 (2 ^ (25 + i.val))) 0#5 = gen[i] := by
  rw [polymodStep_split]
  fin_cases i <;> simp [feedback, conditional]

/-- Settles O30: `polymodStep_split` with the top bits named, and the default generators by definition. -/
theorem polymodStepFormula : Obligations.PolymodStepFormula := by
  refine ⟨fun gen acc v => ?_, rfl⟩
  rw [polymodStep_split]
  simp [feedback, conditional, BitVec.xor_assoc]

/-- Settles O31. -/
theorem pmInitStartsAComputation : Obligations.PmInitStartsAComputation :=
  ⟨rfl, fun _ h => exec_pmInit_of_clear h, fun _ h => exec_of_pending rfl rfl h⟩

/-- Settles O32: row 0x02 of the opcode map, the command's rule, and the corner values of R105. -/
theorem pmStepFeedsOneSymbol : Obligations.PmStepFeedsOneSymbol := by
  refine ⟨fun w hw => ?_, fun v s h => exec_pmStep_of_clear h v, fun v s h => exec_of_pending rfl rfl h,
    by decide, by decide, by decide, by decide, by decide, polymodStep_topBit⟩
  exact decode_of_match (r := opcodeTable[2]) (List.getElem_mem _) hw

/-- Settles O33: row 0x03, and the high part of the byte as a quotient. -/
theorem pmHrphFeedsTheHighPart : Obligations.PmHrphFeedsTheHighPart := by
  refine ⟨fun w hw => ?_, fun c s h => exec_pmHrph_of_clear h c, fun c s h => exec_of_pending rfl rfl h,
    by decide, by decide⟩
  exact decode_of_match (r := opcodeTable[3]) (List.getElem_mem _) hw

/-- Settles O34: row 0x04, and the low part of the byte as a remainder. -/
theorem pmHrplFeedsTheLowPart : Obligations.PmHrplFeedsTheLowPart := by
  refine ⟨fun w hw => ?_, fun c s h => exec_pmHrpl_of_clear h c, fun c s h => exec_of_pending rfl rfl h, by decide⟩
  exact decode_of_match (r := opcodeTable[4]) (List.getElem_mem _) hw

/-- Settles O36: row 0x06 with its select bit, the command's rule for both targets, and R109's examples. -/
theorem pmCsumLatchesTheChecksum : Obligations.PmCsumLatchesTheChecksum := by
  refine ⟨fun w hw => ?_, fun s h => exec_pmCsum_of_clear h .original, fun s h => exec_pmCsum_of_clear h .modern,
    fun t s h => exec_of_pending rfl rfl h, rfl, rfl, by decide, by decide⟩
  rw [← targetOfBit_selectField]
  exact decode_of_match (r := opcodeTable[6]) (List.getElem_mem _) hw

/-! ### PM_VERIFY's result (R110) -/

theorem verifyVar_of_modern {c : Config} {a : Acc} (h : a = c.modern) : verifyVar c a = 2#2 := if_pos h

theorem verifyVar_of_original {c : Config} {a : Acc} (hm : a ≠ c.modern) (ho : a = c.original) :
    verifyVar c a = 1#2 := (if_neg hm).trans (if_pos ho)

theorem verifyVar_of_neither {c : Config} {a : Acc} (hm : a ≠ c.modern) (ho : a ≠ c.original) :
    verifyVar c a = 0#2 := (if_neg hm).trans (if_neg ho)

/-- With targets that differ, the result names the target that the accumulator holds. -/
theorem verifyVar_targetValue {c : Config} (hne : c.original ≠ c.modern) (t : Target) :
    verifyVar c (targetValue c t) = match t with | .original => 1#2 | .modern => 2#2 := by
  cases t with
  | original => exact verifyVar_of_original hne rfl
  | modern => exact verifyVar_of_modern rfl

/-- With targets that differ, each result says exactly which target the accumulator holds. -/
theorem verifyVar_classifies {c : Config} (hne : c.original ≠ c.modern) (a : Acc) :
    (verifyVar c a = 2#2 ↔ a = c.modern) ∧ (verifyVar c a = 1#2 ↔ a = c.original) ∧
      (verifyVar c a = 0#2 ↔ a ≠ c.modern ∧ a ≠ c.original) := by
  by_cases hm : a = c.modern
  · rw [verifyVar_of_modern hm]
    simp [hm, hne.symm]
  · by_cases ho : a = c.original
    · rw [verifyVar_of_original hm ho]
      simp [ho, hne]
    · rw [verifyVar_of_neither hm ho]
      simp [hm, ho]

theorem verifyChecksum_iff (c : Config) (tag : List Byte) (data : List Symbol) (t : Target) :
    verifyChecksum c tag data t = true ↔ polymod c (expandTag tag ++ data) = targetValue c t := beq_iff_eq

/-- Settles O37: the three results of `verifyVar`, and R110's example run. -/
theorem pmVerifyClassifiesTheAccumulator : Obligations.PmVerifyClassifiesTheAccumulator := by
  refine ⟨rfl, fun s h hm => ?_, fun s h hm ho => ?_, fun s h hm ho => ?_, fun s h => exec_of_pending rfl rfl h,
    by decide⟩
  · rw [exec_pmVerify_of_clear h, verifyVar_of_modern hm]
  · rw [exec_pmVerify_of_clear h, verifyVar_of_original hm ho]
  · rw [exec_pmVerify_of_clear h, verifyVar_of_neither hm ho]

/-- Settles O38: one polymod value is not two targets. -/
theorem variantsAreExclusive : Obligations.VariantsAreExclusive := by
  refine ⟨fun c hne tag data hboth => hne ?_, by decide⟩
  obtain ⟨ho, hm⟩ := hboth
  exact ((verifyChecksum_iff c tag data .original).1 ho).symm.trans ((verifyChecksum_iff c tag data .modern).1 hm)

/-! ### Sequences of commands (R108, R111, R112) -/

theorem execAll_cons_of_next {i : Instr} {s t : State} (h : exec i s = .next t) (is : List Instr) :
    execAll (i :: is) s = execAll is t := by
  simp [execAll, h]

theorem execAll_append_of_next {is : List Instr} {s t : State} (h : execAll is s = .next t) (js : List Instr) :
    execAll (is ++ js) s = execAll js t := by
  induction is generalizing s with
  | nil => cases h; rfl
  | cons i is ih =>
    obtain ⟨u, hu⟩ := exec_exists_next i s
    rw [execAll_cons_of_next hu] at h
    rw [List.cons_append, execAll_cons_of_next hu, ih h]

/-- Commands that each feed one symbol run as the steps of their symbols in order. -/
theorem execAll_map_of_feeds {α : Type} {cmd : α → Instr} {sym : α → Symbol}
    (hfeed : ∀ x {s : State}, s.err = 0#4 →
      exec (cmd x) s = .next (s.fedTo (polymodStep s.config.gen s.acc (sym x))))
    (xs : List α) {s : State} (h : s.err = 0#4) (a : Acc) :
    execAll (xs.map cmd) (s.fedTo a) = .next (s.fedTo (polymodFrom s.config.gen a (xs.map sym))) := by
  induction xs generalizing a with
  | nil => rfl
  | cons x xs ih =>
    have hx := hfeed x (s := s.fedTo a) h
    rw [List.map_cons, execAll_cons_of_next hx, State.fedTo_fedTo, ih]
    rfl

theorem execAll_pmData {s : State} (h : s.err = 0#4) (vs : List Symbol) (a : Acc) :
    execAll (pmData vs) (s.fedTo a) = .next (s.fedTo (polymodFrom s.config.gen a vs)) := by
  have hrun := execAll_map_of_feeds (sym := id) (fun v _ hs => exec_pmStep_of_clear hs v) vs h a
  rwa [List.map_id] at hrun

/-- The commands of `pm.tag` feed the source's `expandTag` (R111). -/
theorem execAll_pmTag {s : State} (h : s.err = 0#4) (tag : List Byte) (a : Acc) :
    execAll (pmTag tag) (s.fedTo a) = .next (s.fedTo (polymodFrom s.config.gen a (expandTag tag))) := by
  have hhigh := execAll_map_of_feeds (fun c _ hs => exec_pmHrph_of_clear hs c) tag h a
  have hlow := execAll_map_of_feeds (fun c _ hs => exec_pmHrpl_of_clear hs c) tag h
  have hzero : ∀ b, execAll [.pmStep 0#5] (s.fedTo b) = _ := execAll_pmData h [0#5]
  rw [pmTag, List.append_assoc, execAll_append_of_next hhigh, execAll_append_of_next (hzero _), hlow, expandTag,
    polymodFrom_append, polymodFrom_append]

theorem polymod_append (c : Config) (vs ws : List Symbol) :
    polymod c (vs ++ ws) = polymodFrom c.gen (polymod c vs) ws := polymodFrom_append _ _ _ _

/-- What `pm.create` and `pm.check` begin with leaves the polymod value of tag and data, from any accumulator. -/
theorem execAll_init_tag_data {s : State} (h : s.err = 0#4) (tag : List Byte) (vs : List Symbol) :
    execAll ([.pmInit] ++ pmTag tag ++ pmData vs) s = .next (s.fedTo (polymod s.config (expandTag tag ++ vs))) := by
  rw [List.append_assoc, List.singleton_append, execAll_cons_of_next (exec_pmInit_of_clear h),
    execAll_append_of_next (execAll_pmTag h tag _), execAll_pmData h, polymod_append]
  rfl

theorem execAll_pmCreate {s : State} (h : s.err = 0#4) (t : Target) (tag : List Byte) (payload : List Symbol) :
    execAll (pmCreate t tag payload) s = .next { s with
      acc := polymod s.config (expandTag tag ++ payload ++ List.replicate 6 0#5),
      chk := createChecksum s.config tag payload t, resp := 0#32 } := by
  have hpad := exec_pmPad6_of_clear (s := s.fedTo (polymod s.config (expandTag tag ++ payload))) h
  rw [State.fedTo_fedTo, State.fedTo_acc, State.fedTo_config, ← polymod_append] at hpad
  rw [pmCreate, execAll_append_of_next (execAll_init_tag_data h tag payload), execAll_cons_of_next hpad,
    execAll_cons_of_next (exec_pmCsum_of_clear (s := s.fedTo _) h t)]
  rfl

theorem execAll_pmCheck {s : State} (h : s.err = 0#4) (tag : List Byte) (data : List Symbol) :
    execAll (pmCheck tag data) s = .next { s with
      acc := polymod s.config (expandTag tag ++ data),
      var := verifyVar s.config (polymod s.config (expandTag tag ++ data)), resp := 0#32 } := by
  rw [pmCheck, execAll_append_of_next (execAll_init_tag_data h tag data),
    execAll_cons_of_next (exec_pmVerify_of_clear (s := s.fedTo _) h)]
  rfl

/-- Symbol commands behind a pending fault leave the state that the first blocked one left. -/
theorem execAll_pmData_of_pending {s : State} (h : s.err ≠ 0#4) (vs : List Symbol) :
    execAll (pmData vs) s.blocked = .next s.blocked := by
  induction vs with
  | nil => rfl
  | cons v vs ih =>
    have hv : exec (.pmStep v) s.blocked = .next s.blocked := exec_of_pending rfl rfl h
    exact (execAll_cons_of_next hv _).trans ih

/-- R108: one atomic command or six, in every state. -/
theorem exec_pmPad6_eq_execAll (s : State) : exec .pmPad6 s = execAll (pmData (List.replicate 6 0#5)) s := by
  rw [List.replicate_succ, pmData, List.map_cons]
  by_cases h : s.err = 0#4
  · rw [exec_pmPad6_of_clear h, execAll_cons_of_next (exec_pmStep_of_clear h 0#5)]
    exact (execAll_pmData h (List.replicate 5 0#5) _).symm
  · rw [exec_of_pending rfl rfl h, execAll_cons_of_next (exec_of_pending rfl rfl h)]
    exact (execAll_pmData_of_pending h (List.replicate 5 0#5)).symm

/-- Settles O35, from `exec_pmPad6_eq_execAll`. -/
theorem pmPad6FeedsSixZeros : Obligations.PmPad6FeedsSixZeros :=
  ⟨rfl, fun _ h => exec_pmPad6_of_clear h, fun _ h => exec_of_pending rfl rfl h, exec_pmPad6_eq_execAll, by decide⟩

/-- Settles O39. -/
theorem createSequenceComputesTheChecksum : Obligations.CreateSequenceComputesTheChecksum :=
  fun t tag payload _ h => execAll_pmCreate h t tag payload

/-- Settles O40: the run of `pm.check`, and its result by the target that the polymod value is. -/
theorem checkSequenceClassifies : Obligations.CheckSequenceClassifies := by
  intro tag data s h hne
  refine ⟨_, execAll_pmCheck h tag data, ?_⟩
  simp only [← Bool.not_eq_true, verifyChecksum_iff]
  exact verifyVar_classifies hne _

/-! ### Correcting six symbols (R109, R111, R112) -/

/-- The six groups of the padded value XOR a target, in place of the six zeros, lead to the target: the step is
XOR-linear, and from zero six symbols are the six groups. -/
theorem polymodFrom_correction (gen : Vector Acc 5) (a target : Acc) :
    polymodFrom gen a (checksumSymbols (polymodFrom gen a (List.replicate 6 0#5) ^^^ target)) = target := by
  have hsplit (chk : Acc) :
      polymodFrom gen a (checksumSymbols chk) = polymodFrom gen a (List.replicate 6 0#5) ^^^ chk := by
    have hxor := polymodFrom_xor gen a 0#30 (checksumSymbols chk)
    rwa [BitVec.xor_zero, polymodFrom_checksumSymbols] at hxor
  rw [hsplit, ← BitVec.xor_assoc, BitVec.xor_self, BitVec.zero_xor]

theorem polymod_createChecksum (c : Config) (tag : List Byte) (payload : List Symbol) (t : Target) :
    polymod c (expandTag tag ++ (payload ++ checksumSymbols (createChecksum c tag payload t))) = targetValue c t := by
  rw [createChecksum, ← List.append_assoc, polymod_append c (expandTag tag ++ payload),
    polymod_append c (expandTag tag ++ payload)]
  exact polymodFrom_correction c.gen _ _

/-- Settles O41: the two runs, and `polymod_createChecksum` between them. -/
theorem createdChecksumVerifies : Obligations.CreatedChecksumVerifies := by
  intro t tag payload s h hne
  refine ⟨_, _, execAll_pmCreate h t tag payload, execAll_pmCheck (by exact h) tag _, ?_⟩
  simp only [polymod_createChecksum]
  exact verifyVar_targetValue hne t

/-! ### The six groups of the accumulator over GF(32) (R103) -/

theorem chkGroup_getLsbD (a : Acc) (k : Fin 6) {i : Nat} (hi : i < 5) :
    (chkGroup a k).getLsbD i = a.getLsbD (25 - 5 * k.val + i) := by
  simp only [chkGroup, BitVec.getLsbD_extractLsb', hi, decide_true, Bool.true_and]

theorem chkGroup_xor (a b : Acc) (k : Fin 6) : chkGroup (a ^^^ b) k = chkGroup a k ^^^ chkGroup b k :=
  BitVec.extractLsb'_xor

/-- An accumulator is the number of its six groups. -/
theorem acc_eq_of_chkGroup_eq {a b : Acc} (h : ∀ k, chkGroup a k = chkGroup b k) : a = b := by
  rw [← polymodFrom_checksumSymbols defaultGen a, ← polymodFrom_checksumSymbols defaultGen b, checksumSymbols,
    checksumSymbols, funext h]

theorem lowMask_getLsbD (j : Nat) : (0x1FFFFFF#30 : Acc).getLsbD j = decide (j < 25) := by
  rw [show (0x1FFFFFF#30 : Acc) = (BitVec.allOnes 25).setWidth 30 by decide, BitVec.getLsbD_setWidth,
    BitVec.getLsbD_allOnes]
  grind

/-- The bits of the shifted accumulator with the symbol brought in (R100). -/
theorem shifted_getLsbD (a : Acc) (v : Symbol) {j : Nat} (hj : j < 30) :
    (((a &&& 0x1FFFFFF#30) <<< 5) ^^^ v.setWidth 30).getLsbD j
      = if j < 5 then v.getLsbD j else a.getLsbD (j - 5) := by
  rw [BitVec.getLsbD_xor, BitVec.getLsbD_shiftLeft, BitVec.getLsbD_and, BitVec.getLsbD_setWidth, lowMask_getLsbD]
  split
  · simp [*]
  · have hv : v.getLsbD j = false := BitVec.getLsbD_of_ge _ _ (by omega)
    simp [*]
    omega

/-- The six groups of an accumulator, most significant first. -/
def accGroups (a : Acc) : Vector Symbol 6 := Vector.ofFn (chkGroup a)

theorem accGroups_get (a : Acc) (k : Fin 6) : (accGroups a)[k] = chkGroup a k := by
  simp [accGroups]

theorem accGroups_getElem?_succ (a : Acc) (k : Fin 5) : (accGroups a)[k.val + 1]? = some (chkGroup a k.succ) :=
  (Vector.getElem?_eq_getElem k.succ.isLt).trans (congrArg some (accGroups_get a k.succ))

/-- Shifting moves every group one place up and brings the symbol in at the lowest. -/
theorem chkGroup_shifted (a : Acc) (v : Symbol) (k : Fin 6) :
    chkGroup (((a &&& 0x1FFFFFF#30) <<< 5) ^^^ v.setWidth 30) k = (accGroups a)[k.val + 1]?.getD v := by
  apply BitVec.eq_of_getLsbD_eq
  intro i hi
  rw [chkGroup_getLsbD _ _ hi, shifted_getLsbD a v (by omega)]
  cases k using Fin.lastCases with
  | last => simp [hi]
  | cast k =>
    rw [Fin.val_castSucc, accGroups_getElem?_succ, Option.getD_some, chkGroup_getLsbD _ _ hi, if_neg (by omega),
      Fin.val_succ]
    congr 1
    omega

/-- The default generators are the multiples of the coefficients of g(x) by 1, 2, 4, 8 and 16, so what the top group
contributes is its product with g(x) (R103). -/
theorem chkGroup_feedback_default :
    ∀ (top : Symbol) (k : Fin 6), chkGroup (feedback defaultGen top) k = gfMul top generatorCoeffs[k] := by decide

theorem chkGroup_polymodStep_default (a : Acc) (v : Symbol) (k : Fin 6) :
    chkGroup (polymodStep defaultGen a v) k
      = (accGroups a)[k.val + 1]?.getD v ^^^ gfMul (chkGroup a 0) generatorCoeffs[k] := by
  rw [polymodStep_split, chkGroup_xor, chkGroup_shifted, chkGroup_feedback_default]
  rfl

/-- A polymod step with the default generators is a step of Horner's rule on the groups (R103). -/
theorem accGroups_polymodStep_default (a : Acc) (v : Symbol) :
    accGroups (polymodStep defaultGen a v) = remainderStep (accGroups a) v := by
  have htop : (accGroups a)[0] = chkGroup a 0 := accGroups_get a 0
  rw [remainderStep, htop, accGroups, funext (chkGroup_polymodStep_default a v)]

/-- Settles O43: the groups of the initial accumulator are the constant 1, and every step is one of Horner's rule. -/
theorem polymodIsThePolynomialRemainder : Obligations.PolymodIsThePolynomialRemainder := by
  intro vs k
  have hstart : accGroups 1#30 = #v[0#5, 0#5, 0#5, 0#5, 0#5, 1#5] := by decide
  have hfold : remainder vs = accGroups (polymod defaultConfig vs) := by
    rw [remainder, ← hstart]
    exact List.foldl_hom accGroups fun a v => (accGroups_polymodStep_default a v).symm
  rw [hfold, accGroups_get]

/-! ### No difference is lost (R100, R101) -/

theorem gfMul_zero_left : ∀ b : Symbol, gfMul 0#5 b = 0#5 := by decide

/-- The constant coefficient of g(x) is no zero divisor. -/
theorem gfMul_constantCoeff_eq_zero : ∀ top : Symbol, gfMul top generatorCoeffs[5] = 0#5 → top = 0#5 := by decide

/-- The lowest group of the result is the top group times the constant coefficient of g(x): where it is zero the top
group was, and then the step only shifted. -/
theorem polymodStep_default_eq_zero {a : Acc} (h : polymodStep defaultGen a 0#5 = 0#30) : a = 0#30 := by
  have hzero (k : Fin 6) : chkGroup 0#30 k = 0#5 := BitVec.extractLsb'_zero
  have hgroups (k : Fin 6) : (accGroups a)[k.val + 1]?.getD 0#5 ^^^ gfMul (chkGroup a 0) generatorCoeffs[k] = 0#5 := by
    rw [← chkGroup_polymodStep_default, h, hzero]
  have htop : chkGroup a 0 = 0#5 := gfMul_constantCoeff_eq_zero _ (by simpa using hgroups 5)
  apply acc_eq_of_chkGroup_eq
  intro k
  cases k using Fin.cases with
  | zero => rw [htop, hzero]
  | succ k =>
    have hk : (accGroups a)[k.val + 1]?.getD 0#5 ^^^ _ = 0#5 := hgroups k.castSucc
    rwa [accGroups_getElem?_succ, Option.getD_some, htop, gfMul_zero_left, BitVec.xor_zero,
      ← hzero k.succ] at hk

theorem polymodFrom_default_zeros_eq_zero (n : Nat) {a : Acc}
    (h : polymodFrom defaultGen a (List.replicate n 0#5) = 0#30) : a = 0#30 := by
  induction n generalizing a with
  | zero => exact h
  | succ n ih => exact polymodStep_default_eq_zero (ih h)

/-- Two accumulators that differ still differ after the same symbols. -/
theorem polymodFrom_default_injective (vs : List Symbol) {a b : Acc}
    (h : polymodFrom defaultGen a vs = polymodFrom defaultGen b vs) : a = b := by
  have hxor := polymodFrom_xor defaultGen (a ^^^ b) b vs
  rw [BitVec.xor_assoc, BitVec.xor_self, BitVec.xor_zero, h] at hxor
  have hdiff : polymodFrom defaultGen (a ^^^ b) (List.replicate vs.length 0#5) = 0#30 :=
    (BitVec.xor_left_inj (polymodFrom defaultGen b vs)).1 (by rw [← hxor, BitVec.zero_xor])
  exact BitVec.xor_eq_zero_iff.1 (polymodFrom_default_zeros_eq_zero _ hdiff)

/-- Whatever the generators, a step with another symbol gives another accumulator. -/
theorem polymodStep_symbol_injective (gen : Vector Acc 5) (a : Acc) {v w : Symbol}
    (h : polymodStep gen a v = polymodStep gen a w) : v = w := by
  rw [polymodStep_split, polymodStep_split, BitVec.xor_left_inj, BitVec.xor_right_inj] at h
  simpa using congrArg (BitVec.setWidth 5) h

/-- Settles O42: the runs agree up to the place, differ there, and keep differing after it. -/
theorem oneAlteredSymbolIsDetected : Obligations.OneAlteredSymbolIsDetected := by
  intro tag before after v v' t hne hv
  rw [← Bool.not_eq_true]
  intro hv'
  rw [verifyChecksum_iff, ← List.append_assoc, polymod_append] at hv hv'
  exact hne (polymodStep_symbol_injective _ _ (polymodFrom_default_injective after (hv.trans hv'.symm)))

end Sys2Proof.Machine

/-! The packer family: the bitstream helpers (41_txref_packer.md R134), what each packer command does (R135 to R147), the
default table (R132, R133, R149) and the round trips between fields and groups (R148). -/

namespace Sys2Proof

/-! ### The fields in canonical order (R130) -/

theorem FieldId.all_getElem_idx (f : FieldId) : FieldId.all[f.idx.val]'f.idx.isLt = f := by cases f <;> rfl

theorem FieldId.idx_all_getElem : ∀ k : Fin 7, (FieldId.all[k.val]'k.isLt).idx = k := by decide

theorem Slot.eq_mk {x : Slot} {off width : Nat} (hoff : x.off = off) (hwidth : x.width = width) : x = ⟨off, width⟩ := by
  rw [← hoff, ← hwidth]

end Sys2Proof

namespace Sys2Proof.Machine

/-! ### A legal layout row (R131 to R133) -/

theorem layoutRow_legal {c : Config} (hc : c.Legal) (v : BitVec 3) : (layoutRow c v).Legal (v.toNat % 2 == 1) :=
  hc.rows v.toFin

theorem State.row_legal {s : State} (hc : s.config.Legal) : s.row.Legal (s.tvar.toNat % 2 == 1) :=
  layoutRow_legal hc s.tvar

section LegalRow

variable {ext : Bool} {row : LayoutRow} {f g : FieldId} (hrow : row.Legal ext)
include hrow

/-- The present fields stand in canonical order (R133 c). -/
theorem slot_end_le_off_of_legal (hlt : f.idx < g.idx) (hf : (row.slot f).width ≠ 0) (hg : (row.slot g).width ≠ 0) :
    (row.slot f).off + (row.slot f).width ≤ (row.slot g).off := by
  have hordered := hrow.ordered
  rw [LayoutRow.present, List.pairwise_filter, LayoutRow.slots_eq_map, List.pairwise_map,
    List.pairwise_iff_getElem] at hordered
  have hfg := hordered f.idx g.idx f.idx.isLt g.idx.isLt hlt
  rw [f.all_getElem_idx, g.all_getElem_idx] at hfg
  exact hfg (by simpa using hf) (by simpa using hg)

/-- A present field ends within the N groups (R133 d). -/
theorem slot_end_le_of_legal (hf : (row.slot f).width ≠ 0) : (row.slot f).off + (row.slot f).width ≤ 5 * row.n := by
  have hlast : Covers row f ((row.slot f).off + (row.slot f).width - 1) := by omega
  have := hlast.lt_of_legal hrow
  omega

end LegalRow

/-- Settles O45: FLAG ends at 6, HEIGHT has at least 21 bits, POS at least 13, and the eight groups end at 40. -/
theorem legacyMainStandardRowIsForced : Obligations.LegacyMainStandardRowIsForced := by
  intro c hc
  have hrow : (c.layout[0]).Legal false := hc.rows 0
  have hn := hc.row0Count
  generalize c.layout[0] = row at hrow hn
  have hflag := hrow.flagSecond
  obtain ⟨hheight, -⟩ := hrow.heightRange
  obtain ⟨hpos, -⟩ := hrow.posRange
  have hflagWidth : row.flag.width ≠ 0 := by simp [hflag]
  have hheightWidth : row.height.width ≠ 0 := by omega
  have hposWidth : row.pos.width ≠ 0 := by omega
  have hflagEnd := slot_end_le_off_of_legal (f := .flag) (g := .height) hrow (by decide) hflagWidth hheightWidth
  have hheightEnd := slot_end_le_off_of_legal (f := .height) (g := .pos) hrow (by decide) hheightWidth hposWidth
  have hposEnd := slot_end_le_of_legal (f := .pos) hrow hposWidth
  simp only [LayoutRow.slot, hflag] at hflagEnd hheightEnd hposEnd
  exact ⟨Slot.eq_mk (by omega) (by omega), Slot.eq_mk (by omega) (by omega)⟩

/-- Settles O44: the rows by evaluation, and `defaultConfig_legal`. -/
theorem defaultLayoutIsLegal : Obligations.DefaultLayoutIsLegal :=
  ⟨by decide, by decide, defaultConfig_legal, rfl⟩

/-! ### The bitstream helpers (R134) -/

theorem and_widthMask (x w : Nat) : x &&& widthMask w = x % 2 ^ w := by
  rw [widthMask, Nat.one_shiftLeft, Nat.and_two_pow_sub_one_eq_mod]

theorem extractField_eq (row : LayoutRow) (bits : Nat) (f : FieldId) :
    extractField row bits f = bits / 2 ^ (row.slot f).off % 2 ^ (row.slot f).width := by
  rw [extractField, and_widthMask, Nat.shiftRight_eq_div_pow]

theorem groupBits_eq_sum_range (g : Vector Symbol 13) (n : Nat) :
    groupBits g n = ∑ i ∈ Finset.range n, (g[i]?.getD 0#5).toNat * 2 ^ (5 * i) := by
  induction n with
  | zero => rfl
  | succ n ih => rw [groupBits_succ, Finset.sum_range_succ, ih, Nat.shiftLeft_eq]

/-- Settles O46. -/
theorem bitstreamHelpers : Obligations.BitstreamHelpers := by
  refine ⟨fun g n hn => ?_, extractField_eq, fun row F => ?_⟩
  · have hbelow : (Finset.range 13).filter (· < n) = Finset.range n := by ext i; simp; omega
    have hsum := Fin.sum_univ_eq_sum_range (fun i => if i < n then (g[i]?.getD 0#5).toNat * 2 ^ (5 * i) else 0) 13
    rw [groupBits_eq_sum_range, ← hbelow, Finset.sum_filter, ← hsum]
    simp
  · simp [depositFields, FieldId.all, FieldId.idx, LayoutRow.slot, and_widthMask]

/-! ### TP_PACK's check (R145) -/

theorem fieldFits_iff (row : LayoutRow) (F : Vector FieldWord 7) (f : FieldId) :
    fieldFits row F f = true ↔ Fits row F f := by
  unfold fieldFits Fits
  split <;> simp [Nat.one_shiftLeft]

theorem firstUnfit_eq_none_iff (row : LayoutRow) (F : Vector FieldWord 7) :
    firstUnfit row F = none ↔ FieldsFit row F := by
  simp [firstUnfit, List.find?_eq_none, fieldFits_iff, FieldsFit, FieldId.mem_all]

theorem firstUnfit_eq_some {row : LayoutRow} {F : Vector FieldWord 7} {f : FieldId} (hf : ¬ Fits row F f)
    (hbelow : ∀ j : FieldId, j.idx < f.idx → Fits row F j) : firstUnfit row F = some f := by
  refine List.find?_eq_some_iff_getElem.2 ⟨?_, f.idx, f.idx.isLt, f.all_getElem_idx, fun j hj => ?_⟩
  · simpa [← fieldFits_iff] using hf
  · have hlt : j < FieldId.all.length := hj.trans f.idx.isLt
    have hidx : FieldId.all[j].idx = ⟨j, hlt⟩ := FieldId.idx_all_getElem ⟨j, hlt⟩
    have hfit := hbelow FieldId.all[j] (by rw [hidx]; exact hj)
    simpa using (fieldFits_iff row F _).2 hfit

/-! ### One command (R135 to R147) -/

/-- The error word with a detail of fewer bits than ERRINFO. -/
theorem errorWord_setWidth (e : BitVec 4) {k : Nat} (n : BitVec k) (hk : k ≤ 8) :
    errorWord e (n.setWidth 8) = (0x80000000#32 ||| e.setWidth 32) ||| (n.setWidth 32 <<< 8) := by
  rw [errorWord, BitVec.setWidth_setWidth (by simp [hk]), BitVec.or_assoc, BitVec.or_comm (n.setWidth 32 <<< 8),
    ← BitVec.or_assoc]

section

variable {s : State} (h : s.err = 0#4)
include h

theorem exec_tpPack_of_fit (hfit : FieldsFit s.row s.f) : exec .tpPack s = .next { s with
    g := packGroups s.row s.f, glen := BitVec.ofNat 4 s.row.n, resp := 0#32 } := by
  rw [exec, execTpPack, unlessBlocked_of_clear h, (firstUnfit_eq_none_iff _ _).2 hfit]
  rfl

theorem exec_tpPack_of_unfit {f : FieldId} (hf : firstUnfit s.row s.f = some f) :
    exec .tpPack s = .next (s.raise .fieldRange (fieldInfo f)) := by
  rw [exec, execTpPack, unlessBlocked_of_clear h, hf]

theorem exec_tpUnpack_of_count (hn : s.glen.toNat = s.row.n) :
    exec .tpUnpack s = .next { s with f := unpackFields s.row s.g, resp := 0#32 } :=
  (unlessBlocked_of_clear h _).trans (if_neg (not_not_intro hn))

theorem exec_tpUnpack_of_mismatch (hn : s.glen.toNat ≠ s.row.n) :
    exec .tpUnpack s = .next (s.raise .lenMismatch (lengthInfo s.glen)) :=
  (unlessBlocked_of_clear h _).trans (if_pos hn)

/-- TP_PACK completes exactly on fields that fit. -/
theorem exec_tpPack_completes_iff : (∃ t, exec .tpPack s = .next t ∧ t.err = 0#4) ↔ FieldsFit s.row s.f := by
  constructor
  · rintro ⟨t, ht, herr⟩
    rcases execTpPack_next ht with ⟨he, -⟩ | ⟨-, f, -, rfl⟩ | ⟨-, hfit, -⟩
    · exact absurd h he
    · exact absurd herr (s.raise_err_ne_zero _ _)
    · exact (firstUnfit_eq_none_iff _ _).1 hfit
  · exact fun hfit => ⟨_, exec_tpPack_of_fit h hfit, h⟩

end

/-- Settles O47: row 0x10, the command's rule, and the default rows 4 to 7. -/
theorem tpSetvarSelectsTheVariant : Obligations.TpSetvarSelectsTheVariant := by
  refine ⟨fun w hw => ?_, fun v s h => unlessBlocked_of_clear h _, fun v s h => exec_of_pending rfl rfl h, rfl, rfl⟩
  exact decode_of_match (r := opcodeTable[8]) (List.getElem_mem _) hw

/-- A well-formed guarded write of one field, encoded as opcode and immediate. -/
theorem writesField_of_encode {mk : FieldWord → Instr} {op : BitVec 5} (f : FieldId)
    (hencode : ∀ imm, encode (mk imm) = op ++ imm) (hwf : ∀ imm, (mk imm).wf = true)
    (hblocks : ∀ imm, unblocked (mk imm) = false)
    (hexec : ∀ imm s, exec (mk imm) s = unlessBlocked s (complete (s.writeF f imm))) : WritesField mk op f.idx := by
  refine ⟨fun imm => ?_, fun imm s h => ?_, fun imm s h => exec_of_pending (hwf imm) (hblocks imm) h⟩
  · rw [← hencode]
    exact decodeOfEncodeIsTheCommand _ (hwf imm)
  · rw [hexec, unlessBlocked_of_clear h]
    rfl

/-- Settles O48, from `writesField_of_encode` for each field. -/
theorem fieldWritesStoreTheImmediate : Obligations.FieldWritesStoreTheImmediate :=
  ⟨writesField_of_encode .magic (fun _ => rfl) (fun _ => rfl) (fun _ => rfl) fun _ _ => rfl,
    writesField_of_encode .flag (fun _ => rfl) (fun _ => rfl) (fun _ => rfl) fun _ _ => rfl,
    writesField_of_encode .extv (fun _ => rfl) (fun _ => rfl) (fun _ => rfl) fun _ _ => rfl,
    writesField_of_encode .height (fun _ => rfl) (fun _ => rfl) (fun _ => rfl) fun _ _ => rfl,
    writesField_of_encode .pos (fun _ => rfl) (fun _ => rfl) (fun _ => rfl) fun _ _ => rfl,
    writesField_of_encode .txo (fun _ => rfl) (fun _ => rfl) (fun _ => rfl) fun _ _ => rfl,
    writesField_of_encode .rsv (fun _ => rfl) (fun _ => rfl) (fun _ => rfl) fun _ _ => rfl⟩

theorem tpWrg_wf {i : BitVec 4} (h : i.toNat < 13) (v : Symbol) : (Instr.tpWrg i v).wf = true :=
  (groupIndexLegal_iff i).2 h

theorem tpSetlen_wf {n : BitVec 4} (h : n.toNat ≤ 13) : (Instr.tpSetlen n).wf = true := (groupCountLegal_iff n).2 h

/-- Settles O49: the encoding of TP_WRG within and outside the index space, and the guarded write of the group. -/
theorem tpWrgWritesOneGroup : Obligations.TpWrgWritesOneGroup := by
  refine ⟨fun i v hi => decodeOfEncodeIsTheCommand (.tpWrg i v) (tpWrg_wf (by omega) v), fun i v s hi h => ?_,
    fun i v s hi h => exec_of_pending (tpWrg_wf hi v) rfl h, fun i v hi => ?_⟩
  · exact (dif_pos hi).trans (unlessBlocked_of_clear h _)
  · obtain ⟨-, hwrg, -⟩ := indexOutsideItsSpaceFaults
    exact ⟨hwrg i v hi, runWord_of_decode_error (hwrg i v hi)⟩

/-- Settles O50: the encoding of TP_SETLEN within and outside the range of counts, and the guarded write of GLEN. -/
theorem tpSetlenSetsTheCount : Obligations.TpSetlenSetsTheCount := by
  refine ⟨fun n hn => decodeOfEncodeIsTheCommand (.tpSetlen n) (tpSetlen_wf hn), fun n s hn h => ?_,
    fun n s hn h => exec_of_pending (tpSetlen_wf hn) rfl h, fun n hn => ?_⟩
  · exact (if_pos (tpSetlen_wf hn)).trans (unlessBlocked_of_clear h _)
  · obtain ⟨-, -, hsetlen, -⟩ := indexOutsideItsSpaceFaults
    exact ⟨hsetlen n hn, runWord_of_decode_error (hsetlen n hn)⟩

/-- Settles O53. -/
theorem tpClrClearsThePacker : Obligations.TpClrClearsThePacker :=
  ⟨rfl, fun _ h => unlessBlocked_of_clear h _, fun _ h => exec_of_pending rfl rfl h⟩

/-- The error word of FIELD_RANGE. -/
theorem errorWord_fieldInfo (f : FieldId) :
    errorWord FaultCode.fieldRange.number (fieldInfo f) = 0x80000004#32 ||| (BitVec.ofNat 32 f.idx.val <<< 8) := by
  cases f <;> decide

/-- Settles O51: `exec_tpPack_of_fit`, and the record of the first field that does not fit. -/
theorem tpPackPacksOrFaults : Obligations.TpPackPacksOrFaults := by
  refine ⟨rfl, fun s h hfit => ?_, fun s f h hf hbelow => ?_, fun s h => exec_of_pending rfl rfl h⟩
  · rw [exec_tpPack_of_fit h hfit]
    simp only [packGroups, Nat.shiftRight_eq_div_pow]
  · rw [exec_tpPack_of_unfit h (firstUnfit_eq_some hf hbelow), s.raise_of_clear _ _ h, errorWord_fieldInfo]
    rfl

/-! ### Unpacked fields (R146) -/

/-- The integer of an unpacked field fits the register in a legal row (R133 g). -/
theorem unpackFields_toNat {ext : Bool} {row : LayoutRow} (hrow : row.Legal ext) (g : Vector Symbol 13) (f : FieldId) :
    (unpackFields row g)[f.idx].toNat = extractField row (groupBits g row.n) f := by
  have hwidth : (row.slot f).width ≤ 27 := hrow.widthBound _ (row.slot_mem_slots f)
  rw [unpackFields_get, BitVec.toNat_ofNat]
  exact Nat.mod_eq_of_lt ((extractField_lt row _ f).trans_le (Nat.pow_le_pow_right (by decide) hwidth))

/-- Settles O52: `exec_tpUnpack_of_count` with `unpackFields_toNat`, and the record of the count. -/
theorem tpUnpackUnpacksOrFaults : Obligations.TpUnpackUnpacksOrFaults := by
  refine ⟨rfl, fun s h hn => ⟨_, exec_tpUnpack_of_count h hn, fun hc f => ?_⟩, fun s h hn => ?_,
    fun s h => exec_of_pending rfl rfl h⟩
  · rw [unpackFields_toNat (State.row_legal hc), extractField_eq]
  · rw [exec_tpUnpack_of_mismatch h hn, s.raise_of_clear _ _ h, lengthInfo, errorWord_setWidth _ _ (by decide)]
    rfl

/-! ### The maxima (R149) -/

theorem fits_iff_le (row : LayoutRow) (F : Vector FieldWord 7) (f : FieldId) :
    Fits row F f ↔ F[f.idx].toNat ≤ if f = .rsv then 0 else 2 ^ (row.slot f).width - 1 := by
  have hpos := Nat.two_pow_pos (row.slot f).width
  unfold Fits
  split
  · rw [← BitVec.toNat_inj]; simp
  · omega

theorem Fits.lt_two_pow {row : LayoutRow} {F : Vector FieldWord 7} {f : FieldId} (h : Fits row F f) :
    F[f.idx].toNat < 2 ^ (row.slot f).width := by
  have hpos := Nat.two_pow_pos (row.slot f).width
  have hle := (fits_iff_le row F f).1 h
  split at hle <;> omega

/-- A property of every field, field by field. -/
theorem forall_fieldId_iff (P : FieldId → Prop) :
    (∀ f, P f) ↔ P .magic ∧ P .flag ∧ P .extv ∧ P .height ∧ P .pos ∧ P .txo ∧ P .rsv :=
  ⟨fun h => ⟨h _, h _, h _, h _, h _, h _, h _⟩, fun ⟨h0, h1, h2, h3, h4, h5, h6⟩ f => by cases f <;> assumption⟩

/-- R149's table: the largest value of each field's width, by variant. -/
theorem default_maxima : ∀ v : BitVec 3,
    2 ^ (layoutRow defaultConfig v).magic.width - 1 = 31 ∧ 2 ^ (layoutRow defaultConfig v).flag.width - 1 = 1 ∧
    2 ^ (layoutRow defaultConfig v).extv.width - 1 = 0 ∧
    2 ^ (layoutRow defaultConfig v).height.width - 1
      = [2097151, 2097151, 67108863, 67108863, 16777215, 16777215, 16777215, 16777215].getD v.toNat 0 ∧
    2 ^ (layoutRow defaultConfig v).pos.width - 1
      = [8191, 8191, 262143, 262143, 32767, 32767, 32767, 32767].getD v.toNat 0 ∧
    2 ^ (layoutRow defaultConfig v).txo.width - 1 = [0, 8191, 0, 32767, 0, 32767, 0, 32767].getD v.toNat 0 := by
  decide

theorem State.row_of_default_layout {s : State} (h : s.config.layout = defaultLayout) :
    s.row = layoutRow defaultConfig s.tvar := by
  rw [State.row, layoutRow, h]
  rfl

/-- Settles O58: TP_PACK completes when each field is at most its maximum, and the default maxima are R149's. -/
theorem variantMaxima : Obligations.VariantMaxima := by
  intro s h
  have hle := (exec_tpPack_completes_iff h).trans (forall_congr' (fits_iff_le s.row s.f))
  refine ⟨hle, fun hlayout => hle.trans ?_⟩
  obtain ⟨hmagic, hflag, hextv, hheight, hpos, htxo⟩ := default_maxima s.tvar
  rw [forall_fieldId_iff, State.row_of_default_layout hlayout]
  simp [LayoutRow.slot, FieldId.idx, hmagic, hflag, hextv, hheight, hpos, htxo]

/-! ### Stale groups (R145, R146) -/

/-- The bitstream reads only the groups below N. -/
theorem groupBits_congr {g g' : Vector Symbol 13} {n : Nat} (h : ∀ i : Fin 13, i.val < n → g[i] = g'[i]) :
    groupBits g n = groupBits g' n := by
  have hget : ∀ i ∈ Finset.range n, g[i]? = g'[i]? := by
    intro i hi
    by_cases hlt : i < 13
    · simpa [hlt] using h ⟨i, hlt⟩ (Finset.mem_range.1 hi)
    · simp [hlt]
  rw [groupBits_eq_sum_range, groupBits_eq_sum_range]
  exact Finset.sum_congr rfl fun i hi => by rw [hget i hi]

theorem unpackFields_congr {row : LayoutRow} {g g' : Vector Symbol 13}
    (h : ∀ i : Fin 13, i.val < row.n → g[i] = g'[i]) : unpackFields row g = unpackFields row g' := by
  simp only [unpackFields, groupBits_congr h]

/-- Settles O59: neither meaning's result names what the other states differ in. -/
theorem staleGroupsNeverLeak : Obligations.StaleGroupsNeverLeak := by
  refine ⟨fun s g glen h hfit => ?_, fun s g h hn hg => ?_⟩
  · rw [exec_tpPack_of_fit h hfit]
    exact exec_tpPack_of_fit (s := { s with g := g, glen := glen }) h hfit
  · exact ⟨_, _, exec_tpUnpack_of_count h hn, exec_tpUnpack_of_count (s := { s with g := g }) h hn,
      unpackFields_congr hg⟩

/-! ### Round trips (R148) -/

/-- Position p of the first N groups is in group p / 5. -/
theorem groupBits_testBit_of_lt (g : Vector Symbol 13) {n p : Nat} (hn : n ≤ 13) (hp : p < 5 * n) :
    (groupBits g n).testBit p = g[(⟨p / 5, by omega⟩ : Fin 13)].getLsbD (p % 5) := by
  have hget : g[p / 5]? = some g[(⟨p / 5, by omega⟩ : Fin 13)] := Vector.getElem?_eq_getElem _
  rw [groupBits_testBit, hget, decide_eq_true hp, Option.getD_some, Bool.true_and]

/-- The first N groups hold no position from 5N on. -/
theorem groupBits_testBit_of_ge (g : Vector Symbol 13) {n p : Nat} (hp : 5 * n ≤ p) :
    (groupBits g n).testBit p = false := by
  simp [groupBits_testBit, Nat.not_lt.2 hp]

section PackThenUnpack

variable {ext : Bool} {row : LayoutRow} (hrow : row.Legal ext)
include hrow

/-- The packed groups hold the whole deposited bitstream. -/
theorem groupBits_packGroups (F : Vector FieldWord 7) : groupBits (packGroups row F) row.n = depositFields row F := by
  apply Nat.eq_of_testBit_eq
  intro p
  by_cases hp : p < 5 * row.n
  · rw [groupBits_testBit_of_lt _ hrow.countBound hp, packGroups_getLsbD row F _ _ (Nat.mod_lt _ (by decide)),
      Nat.div_add_mod, decide_eq_true (show p / 5 < row.n by omega), Bool.true_and]
  · rw [groupBits_testBit_of_ge _ (Nat.not_lt.1 hp),
      depositFields_testBit_of_uncovered F fun f _ hf => hp (hf.lt_of_legal hrow)]

/-- What was deposited is extracted again, RSV as 0. -/
theorem extractField_depositFields {F : Vector FieldWord 7} {f : FieldId} (hfit : Fits row F f) :
    extractField row (depositFields row F) f = F[f.idx].toNat := by
  apply Nat.eq_of_testBit_eq
  intro k
  rw [extractField_testBit]
  by_cases hk : k < (row.slot f).width
  · have hcovers : Covers row f ((row.slot f).off + k) := by omega
    by_cases hf : f = .rsv
    · have hzero : F[f.idx] = 0#27 := by simpa [Fits, hf] using hfit
      rw [depositFields_testBit_of_uncovered F fun g hg hcg => hg ((hcg.unique_of_legal hcovers hrow).trans hf), hzero]
      simp
    · rw [depositFields_testBit_of_covered F hrow hf hcovers, Nat.add_sub_cancel_left, BitVec.testBit_toNat]
      simp [hk]
  · have hlt : F[f.idx].toNat < 2 ^ k :=
      hfit.lt_two_pow.trans_le (Nat.pow_le_pow_right (by decide) (Nat.not_lt.1 hk))
    rw [Nat.testBit_lt_two_pow hlt]
    simp [hk]

theorem unpackFields_packGroups {F : Vector FieldWord 7} (hfit : FieldsFit row F) :
    unpackFields row (packGroups row F) = F := by
  apply Vector.ext
  intro k hk
  obtain ⟨f, hf⟩ := FieldId.exists_idx_eq ⟨k, hk⟩
  have hget : (unpackFields row (packGroups row F))[f.idx] = F[f.idx] := by
    apply BitVec.eq_of_toNat_eq
    rw [unpackFields_toNat hrow, groupBits_packGroups hrow, extractField_depositFields hrow (hfit f)]
  obtain rfl : f.idx.val = k := congrArg Fin.val hf
  exact hget

end PackThenUnpack

/-- Settles O56, from `unpackFields_packGroups`. -/
theorem unpackInvertsPackInEveryLegalLayout : Obligations.UnpackInvertsPackInEveryLegalLayout :=
  fun _ _ _ hrow hfit => unpackFields_packGroups hrow hfit

/-- Only positions of fields that TP_PACK deposits hold a 1 in the bitstream of the first N groups. -/
def OnlyDepositedBits (row : LayoutRow) (g : Vector Symbol 13) : Prop :=
  ∀ p, (∀ f : FieldId, f ≠ .rsv → ¬ Covers row f p) → (groupBits g row.n).testBit p = false

section UnpackThenPack

variable {ext : Bool} {row : LayoutRow} (hrow : row.Legal ext) {g : Vector Symbol 13} (hg : OnlyDepositedBits row g)
include hrow hg

/-- What was extracted is deposited again. -/
theorem depositFields_unpackFields : depositFields row (unpackFields row g) = groupBits g row.n := by
  apply Nat.eq_of_testBit_eq
  intro p
  by_cases hp : ∃ f : FieldId, f ≠ .rsv ∧ Covers row f p
  · obtain ⟨f, hne, hf⟩ := hp
    rw [depositFields_testBit_of_covered _ hrow hne hf, ← BitVec.testBit_toNat, unpackFields_toNat hrow,
      extractField_testBit, Nat.add_sub_cancel' hf.1]
    simp [show p - (row.slot f).off < (row.slot f).width by omega]
  · have hp : ∀ f : FieldId, f ≠ .rsv → ¬ Covers row f p := fun f hne hf => hp ⟨f, hne, hf⟩
    rw [depositFields_testBit_of_uncovered _ hp, hg p hp]

theorem packGroups_unpackFields {i : Fin 13} (hi : i.val < row.n) :
    (packGroups row (unpackFields row g))[i] = g[i] := by
  apply BitVec.eq_of_getLsbD_eq
  intro b hb
  rw [packGroups_getLsbD row _ i b hb, depositFields_unpackFields hrow hg, groupBits_testBit,
    show (5 * i.val + b) / 5 = i.val by omega, show (5 * i.val + b) % 5 = b by omega]
  simp [hi, show 5 * i.val + b < 5 * row.n by omega]

/-- An extracted field is below 2^w, and RSV is 0 because no other field covers its positions. -/
theorem fieldsFit_unpackFields : FieldsFit row (unpackFields row g) := by
  intro f
  have hvalue := unpackFields_toNat hrow g f
  by_cases hf : f = .rsv
  · have hzero : extractField row (groupBits g row.n) f = 0 := by
      apply Nat.eq_of_testBit_eq
      intro k
      rw [extractField_testBit, Nat.zero_testBit]
      by_cases hk : k < (row.slot f).width
      · have hcovers : Covers row f ((row.slot f).off + k) := by omega
        rw [hg _ fun j hj hcj => hj ((hcj.unique_of_legal hcovers hrow).trans hf), Bool.and_false]
      · simp [hk]
    rw [Fits, if_pos hf, ← BitVec.toNat_inj, hvalue, hzero]
    rfl
  · rw [Fits, if_neg hf, hvalue]
    exact extractField_lt row _ f

end UnpackThenPack

/-- TP_UNPACK then TP_PACK in any state whose row is legal. -/
theorem exec_tpUnpack_tpPack {ext : Bool} {s : State} (hrow : s.row.Legal ext) (h : s.err = 0#4)
    (hn : s.glen.toNat = s.row.n) (hg : OnlyDepositedBits s.row s.g) :
    ∃ t u, exec .tpUnpack s = .next t ∧ exec .tpPack t = .next u ∧ u.err = 0#4 ∧
      ∀ i : Fin 13, i.val < s.row.n → u.g[i] = s.g[i] :=
  ⟨_, _, exec_tpUnpack_of_count h hn,
    exec_tpPack_of_fit (s := { s with f := unpackFields s.row s.g, resp := 0#32 }) h (fieldsFit_unpackFields hrow hg), h,
    fun _ hi => packGroups_unpackFields hrow hg hi⟩

/-- TP_PACK then TP_UNPACK, with commands in between that keep the parameters, TVAR, G and GLEN. -/
theorem exec_tpPack_tpUnpack {s : State} (hc : s.config.Legal) (h : s.err = 0#4) (hfit : FieldsFit s.row s.f) :
    ∃ t, exec .tpPack s = .next t ∧ ∀ t' : State, t'.config = t.config → t'.tvar = t.tvar → t'.g = t.g →
      t'.glen = t.glen → t'.err = 0#4 → ∃ u, exec .tpUnpack t' = .next u ∧ u.f = s.f ∧ u.err = 0#4 := by
  refine ⟨_, exec_tpPack_of_fit h hfit, fun t' hconfig htvar hgroups hglen herr => ?_⟩
  have hrow : t'.row = s.row := by rw [State.row, hconfig, htvar]; rfl
  have hn : s.row.n ≤ 13 := (State.row_legal hc).countBound
  have hcount : t'.glen.toNat = t'.row.n := by
    rw [hglen, hrow]
    exact Nat.mod_eq_of_lt (by omega)
  refine ⟨_, exec_tpUnpack_of_count herr hcount, ?_, herr⟩
  rw [hrow, hgroups]
  exact unpackFields_packGroups (State.row_legal hc) hfit

/-- In every default row the fields leave no bit of the N groups. -/
theorem exists_covers_of_default : ∀ v : BitVec 3, ∀ p < 5 * (layoutRow defaultConfig v).n,
    ∃ f ∈ FieldId.all, Covers (layoutRow defaultConfig v) f p := by decide

/-- Under the default table the RSV bits alone decide. -/
theorem onlyDepositedBits_of_default {v : BitVec 3} {g : Vector Symbol 13}
    (hrsv : extractField (layoutRow defaultConfig v) (groupBits g (layoutRow defaultConfig v).n) .rsv = 0) :
    OnlyDepositedBits (layoutRow defaultConfig v) g := by
  intro p hp
  by_cases hlt : p < 5 * (layoutRow defaultConfig v).n
  · obtain ⟨f, -, hf⟩ := exists_covers_of_default v p hlt
    obtain rfl : f = .rsv := by_contra fun hne => hp f hne hf
    have hbit := extractField_testBit (layoutRow defaultConfig v) (groupBits g (layoutRow defaultConfig v).n) .rsv
      (p - ((layoutRow defaultConfig v).slot .rsv).off)
    rw [hrsv, Nat.zero_testBit, Nat.add_sub_cancel' hf.1] at hbit
    simpa [Nat.sub_lt_left_of_lt_add hf.1 hf.2] using hbit.symm
  · exact groupBits_testBit_of_ge g (Nat.not_lt.1 hlt)

/-- The bits of the groups that no deposited field covers, group by group. -/
theorem onlyDepositedBits_of_groups {ext : Bool} {row : LayoutRow} (hrow : row.Legal ext) {g : Vector Symbol 13}
    (hg : ∀ (i : Fin 13) (b : Fin 5), i.val < row.n → (∀ f : FieldId, f ≠ .rsv → ¬ Covers row f (5 * i.val + b.val)) →
      g[i].getLsbD b.val = false) : OnlyDepositedBits row g := by
  intro p hp
  by_cases hlt : p < 5 * row.n
  · have hi : p / 5 < row.n := by omega
    rw [groupBits_testBit_of_lt g hrow.countBound hlt]
    exact hg _ ⟨p % 5, Nat.mod_lt _ (by decide)⟩ hi (by rwa [Nat.div_add_mod])
  · exact groupBits_testBit_of_ge g (Nat.not_lt.1 hlt)

/-- Settles O57, from `exec_tpPack_tpUnpack` and `exec_tpUnpack_tpPack`. -/
theorem packUnpackRoundTrip : Obligations.PackUnpackRoundTrip := by
  refine ⟨fun s => exec_tpPack_tpUnpack, fun s hc h hn hg => ?_, fun s hlayout h hn hrsv => ?_, by decide⟩
  · exact exec_tpUnpack_tpPack (State.row_legal hc) h hn (onlyDepositedBits_of_groups (State.row_legal hc) hg)
  · have hrow := State.row_of_default_layout hlayout
    have hlegal := layoutRow_legal defaultConfig_legal s.tvar
    rw [← hrow] at hlegal
    refine exec_tpUnpack_tpPack hlegal h hn ?_
    rw [hrow] at hrsv ⊢
    exact onlyDepositedBits_of_default hrsv

end Sys2Proof.Machine

/-! The control family: NOP, ERRCLR and SWRESET (42_control.md R170, R172, R173). -/

namespace Sys2Proof

/-- A row of format Z has one word: any other word with its opcode has a reserved bit set (R75). -/
theorem decode_of_ne_fixed {r : OpRow} (hr : r ∈ opcodeTable) (hmask : r.mask = 0xFFFFFFFF#32) {w : Word}
    (hop : opField w = r.op) (hw : w ≠ r.fixed) : decode w = .error (.rsvdBits r.op) := by
  have hm : w &&& r.mask ≠ r.fixed := by
    rw [hmask]
    exact mt fixed_of_match hw.symm
  simp [decode, hop, rowOf_op hr, hm]

end Sys2Proof

namespace Sys2Proof.Machine

theorem exec_nop_of_clear {s : State} (h : s.err = 0#4) : exec .nop s = complete s := unlessBlocked_of_clear h _

/-- Without a record there is nothing to clear. -/
theorem State.clearFault_of_clear {s : State} (herr : s.err = 0#4) (hinfo : s.errInfo = 0#8) : s.clearFault = s := by
  rw [State.clearFault, ← herr, ← hinfo]

/-- Settles O24: `decode_of_ne_fixed`, and NOP completes without a write or is blocked. -/
theorem nopOnlyAnswers : Obligations.NopOnlyAnswers := by
  refine ⟨rfl, fun w hop hw => decode_of_ne_fixed (r := opcodeTable[0]) (List.getElem_mem _) rfl hop hw,
    fun s h => exec_nop_of_clear h, fun s h => exec_of_pending rfl rfl h, fun s t h => ?_⟩
  rcases unlessBlocked_complete_next h with ⟨hclear, rfl⟩ | ⟨hpending, rfl⟩
  · simp [hclear, State.respond]
  · simp [hpending, errorWord_bit31]

/-- Settles O28: `decode_of_ne_fixed`, a pending record stands when a decode fault is taken, and ERRCLR completes on
the cleared record. -/
theorem errclrClearsThePendingFault : Obligations.ErrclrClearsThePendingFault := by
  refine ⟨rfl, fun w hop hw => ?_, fun s => rfl, fun s herr hinfo => ?_⟩
  · have hd := decode_of_ne_fixed (r := opcodeTable[22]) (List.getElem_mem _) rfl hop hw
    exact ⟨hd, fun s hs => (runWord_of_decode_error hd s).trans (congrArg _ (s.raise_of_pending _ _ hs))⟩
  · calc exec .errclr s
      _ = complete s.clearFault := rfl
      _ = exec .nop s := by rw [State.clearFault_of_clear herr hinfo, exec_nop_of_clear herr]

/-- Settles O29: `decode_of_ne_fixed`, and SWRESET completes on the reset registers whatever the state. -/
theorem swresetResetsEveryRegister : Obligations.SwresetResetsEveryRegister :=
  ⟨rfl, fun _ hop hw => decode_of_ne_fixed (r := opcodeTable[23]) (List.getElem_mem _) rfl hop hw, fun _ => rfl⟩

end Sys2Proof.Machine

/-! The exceptions family: taking a fault, blocking, what ends it, and which command can raise which fault
(60_exceptions.md). -/

namespace Sys2Proof.Machine

/-! ### Fault entry and blocking (R205, R206) -/

/-- Settles O20: the two cases of `State.raise`, with the error word written out. -/
theorem faultEntryRecordsTheFirstFault : Obligations.FaultEntryRecordsTheFirstFault :=
  fun s code info => ⟨s.raise_of_clear code info, s.raise_of_pending code info⟩

theorem unblocked_eq_false_iff (i : Instr) :
    unblocked i = false ↔ i ≠ .errclr ∧ i ≠ .swreset ∧ ∀ c, i ≠ .rd c := by
  cases i <;> simp [unblocked]

/-- Settles O21: `exec_of_pending` for the blocked commands, and the three others by their own meanings. -/
theorem pendingFaultBlocks : Obligations.PendingFaultBlocks := by
  refine fun s hs => ⟨fun i hwf herrclr hswreset hrd => ?_, fun c r hr => exec_rd_of_mapped hr s, rfl, rfl⟩
  exact exec_of_pending hwf ((unblocked_eq_false_iff i).2 ⟨herrclr, hswreset, hrd⟩) hs

/-! ### What ends blocking (R207, R208) -/

theorem exec_keeps_pending_record {i : Instr} {s t : State} (h : exec i s = .next t) (hs : s.err ≠ 0#4)
    (herrclr : i ≠ .errclr) (hswreset : i ≠ .swreset) : t.err = s.err ∧ t.errInfo = s.errInfo := by
  rcases exec_next_cases h with ⟨-, rfl, -⟩ | ⟨c, n, rfl, -⟩ | ⟨-, -, hkept | ⟨-, -, hclearing⟩, -⟩
  · exact ⟨rfl, rfl⟩
  · exact (s.raise_writes_record_and_resp c n).2 hs
  · exact hkept
  · exact absurd hclearing (not_or.2 ⟨herrclr, hswreset⟩)

/-- A word that fails decode, as every command that does not clear the record, leaves the pending one. -/
theorem runWord_keeps_pending_record {w : Word} {s t : State} (h : runWord w s = .next t) (hs : s.err ≠ 0#4)
    (herrclr : decode w ≠ .ok .errclr) (hswreset : decode w ≠ .ok .swreset) :
    t.err = s.err ∧ t.errInfo = s.errInfo := by
  rcases runWord_next h with ⟨i, hi, hx⟩ | ⟨d, -, rfl⟩
  · exact exec_keeps_pending_record hx hs (fun e => herrclr (e ▸ hi)) (fun e => hswreset (e ▸ hi))
  · exact (s.raise_writes_record_and_resp _ _).2 hs

/-- Settles O22: every event has a next state; it is the cleared or the reset one for the three events of R207, and
`runWord_keeps_pending_record` for every other. -/
theorem onlyClearOrResetEndsBlocking : Obligations.OnlyClearOrResetEndsBlocking := by
  intro e s hs
  cases e with
  | reset o => exact ⟨s.resetRegisters, rfl, nofun, fun _ => ⟨rfl, rfl, rfl⟩, fun hno => absurd rfl (hno o)⟩
  | command w =>
    obtain ⟨t, ht⟩ := runWord_exists_next w s
    have hexec {i : Instr} (hi : decode w = .ok i) : exec i s = .next t := runWord_of_decode_ok hi s ▸ ht
    refine ⟨t, ht, ?_, ?_, fun _ hno => ?_⟩
    · rintro ⟨_, ⟨⟩, hd⟩
      cases hexec hd
      exact ⟨rfl, rfl⟩
    · rintro (⟨_, ⟨⟩⟩ | ⟨_, ⟨⟩, hd⟩)
      cases hexec hd
      exact ⟨rfl, rfl, rfl⟩
    · obtain ⟨herrclr, hswreset⟩ := hno w rfl
      exact runWord_keeps_pending_record ht hs herrclr hswreset

/-! ### Which fault a word or a command can raise (R202) -/

theorem opcode_of_illegalOp {w : Word} {op : BitVec 5} (h : decode w = .error (.illegalOp op)) :
    op = opField w ∧ 0x08 ≤ op.toNat ∧ op.toNat ≤ 0x0F := by
  rcases decode_error h with ⟨⟨⟩, hr⟩ | ⟨_, _, _, ⟨⟩⟩ | ⟨_, _, _, _, ⟨⟩⟩
  exact ⟨rfl, (rowOf_isNone_iff _).1 (Option.isNone_iff_eq_none.2 hr)⟩

/-- A reserved bit is found only in a row of the map, and in none of the I27 rows. -/
theorem opcode_of_rsvdBits {w : Word} {op : BitVec 5} (h : decode w = .error (.rsvdBits op)) :
    op = opField w ∧ ¬ (0x08 ≤ op.toNat ∧ op.toNat ≤ 0x0F) ∧ ¬ (0x11 ≤ op.toNat ∧ op.toNat ≤ 0x17) := by
  rcases decode_error h with ⟨⟨⟩, _⟩ | ⟨r, hr, hm, ⟨⟩⟩ | ⟨_, _, _, _, ⟨⟩⟩
  refine ⟨rfl, ?_, fun ⟨hlo, hhi⟩ => hm (and_mask_of_immediate_row hr hlo hhi)⟩
  simp [← rowOf_isNone_iff, hr]

theorem opcode_of_badIndex {w : Word} {op : BitVec 5} (h : decode w = .error (.badIndex op)) :
    op = opField w ∧ (op = 0x1D#5 ∨ op = 0x18#5 ∨ op = 0x19#5) := by
  rcases decode_error h with ⟨⟨⟩, _⟩ | ⟨_, _, _, ⟨⟩⟩ | ⟨r, hr, -, hw, ⟨⟩⟩
  obtain ⟨hmem, hop⟩ := rowOf_eq_some hr
  exact ⟨rfl, or_rotate.2 (hop ▸ opcode_of_build_not_wf hmem hw)⟩

/-- What a well-formed command can leave in ERR where no fault was pending. -/
theorem exec_err_of_clear {i : Instr} {s t : State} (hwf : i.wf = true) (hs : s.err = 0#4) (h : exec i s = .next t) :
    t.err = 0#4 ∨ (i = .tpPack ∧ t.err = FaultCode.fieldRange.number)
      ∨ (i = .tpUnpack ∧ t.err = FaultCode.lenMismatch.number) := by
  rcases exec_next_cases h with ⟨hp, -⟩ | ⟨c, n, rfl, hfault, -⟩ | ⟨-, -, ⟨hkept, -⟩ | ⟨hclear, -⟩, -⟩
  · exact absurd hs hp
  · rw [s.raise_of_clear c n hs]
    obtain ⟨-, ⟨rfl, rfl, -⟩ | ⟨rfl, rfl, -⟩⟩ := hfault hwf
    · exact .inr (.inl ⟨rfl, rfl⟩)
    · exact .inr (.inr ⟨rfl, rfl⟩)
  · exact .inl (hkept.trans hs)
  · exact .inl hclear

/-! ### No fault depends on ACC, CHK or VAR (R202) -/

/-- The fault record: ERR and ERRINFO (10_state.md R28). -/
def State.record (s : State) : BitVec 4 × BitVec 8 := (s.err, s.errInfo)

/-- The fault record of the state an outcome goes on with. -/
def recordAfter : Host.Outcome State Fault Refusal → Option (BitVec 4 × BitVec 8)
  | .next t => some t.record
  | .fault _ | .refused _ => none

/-- The state with other values in the registers of the polymod engine. -/
def State.withEngine (s : State) (acc chk : Acc) (var : BitVec 2) : State :=
  { s with acc := acc, chk := chk, var := var }

theorem recordAfter_unlessBlocked (s : State) (k : Host.Outcome State Fault Refusal) :
    recordAfter (unlessBlocked s k) = if s.err = 0#4 then recordAfter k else some s.record :=
  apply_ite recordAfter _ _ _

theorem recordAfter_raise (s : State) (c : FaultCode) (n : BitVec 8) :
    recordAfter (.next (s.raise c n)) = some (if s.err = 0#4 then (c.number, n) else s.record) :=
  congrArg some (apply_ite State.record _ _ _)

/-- A guarded command leaves a record that depends on the record before and on what it does when it is not blocked. -/
theorem recordAfter_unlessBlocked_congr {s s' : State} {k k' : Host.Outcome State Fault Refusal}
    (hs : s'.record = s.record) (hk : recordAfter k' = recordAfter k) :
    recordAfter (unlessBlocked s' k') = recordAfter (unlessBlocked s k) := by
  have herr : s'.err = s.err := congrArg Prod.fst hs
  rw [recordAfter_unlessBlocked, recordAfter_unlessBlocked, herr, hs, hk]

/-- Stated on the two registers, so that checking a use compares these and not the accumulators of the two states. -/
theorem recordAfter_complete_congr {u u' : State} (herr : u'.err = u.err) (hinfo : u'.errInfo = u.errInfo) :
    recordAfter (complete u') = recordAfter (complete u) :=
  congrArg some (Prod.ext herr hinfo)

theorem recordAfter_raise_congr {s s' : State} (hs : s'.record = s.record) (c : FaultCode) (n : BitVec 8) :
    recordAfter (.next (s'.raise c n)) = recordAfter (.next (s.raise c n)) := by
  have herr : s'.err = s.err := congrArg Prod.fst hs
  rw [recordAfter_raise, recordAfter_raise, herr, hs]

/-- The faults are raised on operands, on F, on GLEN and on the layout row, never on the engine's registers. -/
theorem recordAfter_exec_withEngine (i : Instr) (s : State) (acc chk : Acc) (var : BitVec 2) :
    recordAfter (exec i (s.withEngine acc chk var)) = recordAfter (exec i s) := by
  have hs : (s.withEngine acc chk var).record = s.record := rfl
  have hrow : (s.withEngine acc chk var).row = s.row := rfl
  cases i with
  | tpWrg k v =>
    simp only [exec, execTpWrg]
    split
    · exact recordAfter_unlessBlocked_congr hs (recordAfter_complete_congr rfl rfl)
    · exact recordAfter_raise_congr hs _ _
  | tpSetlen n =>
    simp only [exec, execTpSetlen]
    split
    · exact recordAfter_unlessBlocked_congr hs (recordAfter_complete_congr rfl rfl)
    · exact recordAfter_raise_congr hs _ _
  | tpPack =>
    have hf : (s.withEngine acc chk var).f = s.f := rfl
    refine recordAfter_unlessBlocked_congr hs ?_
    rw [hrow, hf]
    cases firstUnfit s.row s.f with
    | some f => exact recordAfter_raise_congr hs _ _
    | none => exact recordAfter_complete_congr rfl rfl
  | tpUnpack =>
    have hglen : (s.withEngine acc chk var).glen = s.glen := rfl
    refine recordAfter_unlessBlocked_congr hs ?_
    rw [hrow, hglen]
    split
    · exact recordAfter_raise_congr hs _ _
    · exact recordAfter_complete_congr rfl rfl
  | rd c =>
    simp only [exec, execRd]
    split
    · rfl
    · exact recordAfter_raise_congr hs _ _
  | errclr => rfl
  | swreset => rfl
  | _ => exact recordAfter_unlessBlocked_congr hs (recordAfter_complete_congr rfl rfl)

/-- Settles O23: the opcode of each decode fault, `exec_err_of_clear`, and `recordAfter_exec_withEngine`. -/
theorem whichFaultsEachCommandRaises : Obligations.WhichFaultsEachCommandRaises := by
  refine ⟨fun w op => opcode_of_illegalOp, fun w op => opcode_of_rsvdBits, fun w op => opcode_of_badIndex,
    fun i s t => exec_err_of_clear, fun i s acc chk var t u ht hu => ?_⟩
  have hrecord : recordAfter (.next u) = recordAfter (.next t) := by
    rw [← ht, ← hu]
    exact recordAfter_exec_withEngine i s acc chk var
  exact Prod.ext_iff.1 (Option.some.inj hrecord)

end Sys2Proof.Machine

/-! The reset family: the hardware reset event (70_reset_and_hazards.md R240). -/

namespace Sys2Proof.Machine

/-- SWRESET's response word 0 (42_control.md R173) is the reset value of RESP, so the command leaves what the event
leaves, whatever command the event abandons. -/
theorem exec_swreset_eq_runEvent_reset (s : State) (inProgress : Option Word) :
    exec .swreset s = runEvent (.reset inProgress) s := rfl

/-- Settles O16: SWRESET by O29, the event by `exec_swreset_eq_runEvent_reset`, and every word has a next state. -/
theorem hardwareResetEvent : Obligations.HardwareResetEvent := by
  intro s inProgress r
  obtain ⟨-, -, hexec⟩ := swresetResetsEveryRegister
  have hswreset : exec .swreset s = .next r := hexec s
  have hevent : runEvent (.reset inProgress) s = .next r :=
    (exec_swreset_eq_runEvent_reset s inProgress).symm.trans hswreset
  exact ⟨hevent, hswreset, fun w => runWord_exists_next w r⟩

end Sys2Proof.Machine
